-- ==== Sys2Proof/Word.lean ====
section
/-! DEFINITION. The word types of the PL16's frames and Scan Bus, the bounded numbers that name its lines, channels,
steps, patterns, jobs and digits, and fixed-size tables. -/

namespace Sys2Proof

/-- One byte of a frame (R165, R166). -/
abbrev Byte := BitVec 8

/-- A line, 0 to 15; the same number addresses its line circuit (00 Terms). -/
abbrev LineNo := Fin 16

/-- A channel. The spec numbers channels 1 to 4 (R1); index `c` here is the channel numbered `c + 1`. -/
abbrev Chan := Fin 4

/-- A step of the ring cycle, 0 to 23; `+` and `-` on it are the spec's arithmetic mod 24 (00 Conventions). -/
abbrev Pos := Fin 24

/-- A pattern of the Cadence Table, 0 to 7 (R4). -/
abbrev PatternNo := Fin 8

/-- A record of the Job Table, 0 to 31 (R73). -/
abbrev JobId := Fin 32

/-- The digit that names a party on its line, 0 to 9 (R10). -/
abbrev Digit := Fin 10

/-- A table of `n` entries given by a function of the index. Structural, so that the kernel evaluates it. -/
def tabulate {n : Nat} {α : Type} (f : Fin n → α) : Vector α n :=
  ⟨⟨List.ofFn f⟩, by simp⟩

@[simp] theorem get_tabulate {n : Nat} {α : Type} (f : Fin n → α) (i : Fin n) : (tabulate f).get i = f i := by
  simp [tabulate, Vector.get, Fin.cast]

/-- A table with the entry at one index replaced. -/
def replaceAt {n : Nat} {α : Type} (v : Vector α n) (i : Fin n) (x : α) : Vector α n :=
  v.set i.val x i.isLt

theorem get_replaceAt {n : Nat} {α : Type} (v : Vector α n) (i j : Fin n) (x : α) :
    (replaceAt v i x).get j = if i = j then x else v.get j := by
  simp only [replaceAt, Vector.get, Vector.set, Array.getElem_set, Fin.cast, Fin.ext_iff]

@[simp] theorem get_replaceAt_self {n : Nat} {α : Type} (v : Vector α n) (i : Fin n) (x : α) :
    (replaceAt v i x).get i = x := by
  simp [get_replaceAt]

theorem get_replaceAt_ne {n : Nat} {α : Type} (v : Vector α n) {i j : Fin n} (h : i ≠ j) (x : α) :
    (replaceAt v i x).get j = v.get j := by
  simp [get_replaceAt, h]

/-- The byte a number is sent as (R178: single bytes unless a size is shown). -/
abbrev toByte (n : Nat) : Byte := BitVec.ofNat 8 n

end Sys2Proof
end

