-- ==== Sys2Proof/Syntax.lean ====
section
/-! DEFINITION. The commands of the PL16: one constructor per row of spec/opcode_table.json, with its operands as they
come from outside. Request fields are the bytes of the frame (R178): the part, not the sender, judges their ranges. -/

namespace Sys2Proof

namespace Machine

/-- A party entry as PROFILE_LOAD carries it (R10, R178): raw bytes, not yet judged. -/
structure RawParty where
  digit : Byte
  channel : Byte
  side : Byte
  pattern : Byte
  load : Byte
  idSide : Byte
  idNominal : Byte
  revertPermitted : Byte
  deriving DecidableEq, Repr

/-- A line profile as PROFILE_LOAD carries it (R9, R178), with its party entries in the order given. -/
structure RawProfile where
  resistance : BitVec 16
  hookMargin : Byte
  leakLimit : Byte
  clearTime : Byte
  ringTimeout : Byte
  revertWait : Byte
  parkTime : BitVec 16
  parties : List RawParty
  deriving DecidableEq, Repr

end Machine

open Machine

/-- A signal a generator may already assert when its channel enters STARTING (R144). -/
inductive StartSignal where
  | grdy
  | govl
  deriving DecidableEq, Repr

/-- A piece of the work of one step boundary (R92, R93). The pieces stand in no order among themselves, but for the
hold change, which is ahead of the Ring Scheduler's work (R162). -/
inductive BoundaryPiece where
  /-- Hold Control: RESUMING becomes RUNNING (R162). -/
  | hold
  /-- The five stages of the Ring Scheduler (R93). -/
  | scheduler
  /-- The park timer of a line in LINGER (R62). -/
  | park (line : LineNo)
  /-- The wait or talk steps of a line's reverting call (R130, R138). -/
  | revert (line : LineNo)
  /-- The start timer of a STARTING channel (R148). -/
  | startTimer (channel : Chan)
  /-- The recovery count and overload mark of a channel, at a cycle boundary (R153). -/
  | recovery (channel : Chan)
  /-- The idle count of a channel, at a cycle boundary (R154). -/
  | idle (channel : Chan)
  deriving DecidableEq, Repr

/-- The orders that the spec leaves open within one step boundary. Each list gives what comes first; what it does not
name follows in a fixed order, so that every order can be given and none must be. -/
structure BoundaryOrder where
  /-- The order of the pieces of work (R92, R110, R154). -/
  pieces : List BoundaryPiece
  /-- The order in which stages 2 and 4 take the jobs (R93). -/
  jobs : List JobId
  /-- The order in which a placement tells the channels it uses (R98, R147). -/
  starts : List Chan
  /-- The order of the signals found asserted at entries to STARTING (R144). -/
  signals : List (Chan × StartSignal)
  deriving DecidableEq, Repr

/-- The commands: what comes to the part from outside, one constructor per row of the table of operations and events.
A row that the table names by an outcome carries the stimulus that can lead to it (a Scan Bus reply, a step boundary). -/
inductive Instr where
  /-- RESET is asserted and released, with the levels of RATE1, RATE0 and of the first read of STORM. -/
  | powerOnReset (rate1 rate0 storm : Bool)
  | sampleArrival (reply : BitVec 26)
  | scanFault (reply : BitVec 26)
  | faultRecovery (reply : BitVec 26)
  | seizure (reply : BitVec 26)
  | idWindowEnd (reply : BitVec 26)
  | trip (reply : BitVec 26)
  | digit (reply : BitVec 26)
  | clear (reply : BitVec 26)
  | callerHangUp (reply : BitVec 26)
  | revertCleared (reply : BitVec 26)
  | receiverReturn (reply : BitVec 26)
  | stepBoundary (order : BoundaryOrder)
  | noAnswer (order : BoundaryOrder)
  | noCapacity (order : BoundaryOrder)
  | starved (order : BoundaryOrder)
  | permanentLoop (order : BoundaryOrder)
  | callerStayed (order : BoundaryOrder)
  | startTimeout (order : BoundaryOrder)
  | recovery (order : BoundaryOrder)
  | idleStop (order : BoundaryOrder)
  | ready (channel : Chan)
  | readyLost (channel : Chan)
  | overload (channel : Chan)
  | govlWithdrawn (channel : Chan)
  | signalAtStart (order : BoundaryOrder)
  | stormAssertion
  | stormDeassertion
  | started (reply : BitVec 26)
  /-- The characters of one frame, marker to check byte, arrive one after another. -/
  | frameReceived (characters : List Byte)
  | characterTimeout
  /-- `lines` orders the lines in a soft reset taken at this completion (R176). -/
  | transmissionComplete (lines : List LineNo)
  | unknownRequest (type tag : Byte) (payload : List Byte)
  | profileLoad (tag line : Byte) (profile : RawProfile)
  | profileRead (tag line selector : Byte)
  | profileClear (tag line : Byte)
  | cadenceLoad (tag pattern : Byte) (bursts : List (Byte × Byte))
  | cadenceRead (tag pattern : Byte)
  | ring (tag line digit cycles : Byte)
  | generalRing (tag line cycles : Byte)
  | cancel (tag line : Byte)
  | release (tag line : Byte)
  | block (tag line : Byte)
  | unblock (tag line : Byte)
  | revert (tag line called : Byte)
  | jobRead (tag job : Byte)
  | phaseRead (tag channel : Byte)
  | generatorSet (tag channel nominal : Byte)
  | generatorReset (tag channel : Byte)
  | hold (tag mode : Byte)
  | resume (tag : Byte)
  | maskSet (tag masks : Byte)
  | summaryRead (tag : Byte)
  | summaryAck (tag target classes : Byte)
  | lineStatus (tag line : Byte)
  | softReset (tag : Byte)
  | characterArrival (character : Byte) (stopBit : Bool)
  deriving DecidableEq, Repr

end Sys2Proof
end

