-- ==== Sys2Proof/Decode.lean ====
section
/-! DEFINITION. The command a table word spells. No row of spec/opcode_table.json gives bits, so no word spells one.
The bytes of the link's frames are read and written in Machine/Operands.lean. -/

namespace Sys2Proof

/-- The command spelled by the low `nbits` bits of `w`, numbered as the table numbers them: none, for the table gives
no row any bits. -/
def decodeTableWord (_nbits _w : Nat) : Option Instr := none

end Sys2Proof
end

