-- ==== Sys2Proof/Config.lean ====
section
/-! DEFINITION. What the spec leaves without a value. -/

namespace Sys2Proof

/-- A free value: the byte sent where R178 gives none, the four bytes after the outcome of an absent ID result
(log 12). Nothing constrains it; the argument is the model's counter of such bytes. -/
opaque Config.freeByte : Nat → Byte

end Sys2Proof
end

