-- ==== Sys2Proof/Machine/State.lean ====
section
/-! DEFINITION. Everything the spec has the PL16 hold, as plain data, and its values after power-on reset. -/

namespace Sys2Proof.Machine

/-- Why the machine stops. No constructor: the part never stops. A refused request gets a status and a broken frame is
discarded; FAULT and FAILED are states it goes on from (log 26). -/
inductive Fault where
  deriving DecidableEq, Repr

/-- What has no meaning in the model. -/
inductive Refusal where
  /-- Raised by an arm of `exec` that has no meaning yet; none has this now. Safe: nothing is claimed of it. -/
  | notModelled (mnemonic : String)
  deriving DecidableEq, Repr

/-! ## Ring codes, cadences and profiles (01) -/

/-- The conductor on which ringing is superimposed (R1). -/
inductive Side where
  | tip
  | ring
  deriving DecidableEq, Repr

/-- The conductor of a party's identification element, or NONE (R10). -/
inductive IdSide where
  | tip
  | ring
  | none
  deriving DecidableEq, Repr

/-- A ring code: channel, side and pattern (R1). -/
structure RingCode where
  chan : Chan
  side : Side
  pattern : PatternNo
  deriving DecidableEq, Repr

/-- A burst of a pattern: start step and length in steps (R4). -/
structure Burst where
  start : Nat
  length : Nat
  deriving DecidableEq, Repr

/-- A party entry of a committed profile (R10). -/
structure Party where
  digit : Digit
  code : RingCode
  load : Nat
  idSide : IdSide
  idNominal : Option Nat
  revertPermitted : Bool
  deriving DecidableEq, Repr

/-- A Line Profile (R9), with its party list in the order given. -/
structure Profile where
  resistance : Nat
  hookMargin : Nat
  leakLimit : Nat
  clearTime : Nat
  ringTimeout : Nat
  revertWait : Nat
  parkTime : Nat
  parties : List Party
  deriving DecidableEq, Repr

/-! ## Lines (02, 03, 04, 07, 08) -/

/-- The thirteen line states (R54), in the order of its table. -/
inductive LineState where
  | unconfigured
  | idle
  | seizeId
  | seized
  | ringing
  | answerId
  | talk
  | revertWait
  | revertTalk
  | linger
  | lockout
  | blocked
  | fault
  deriving DecidableEq, Repr

/-- The three currents of a good reply, in su (R23). -/
structure Sample where
  loop : Nat
  tip : Nat
  ring : Nat
  deriving DecidableEq, Repr

/-- The hook filter and its run measurements (R34, R36, R37). -/
structure HookFilter where
  offHook : Bool
  disagreement : Nat
  breakCount : Nat
  makeCount : Nat
  pulseCount : Nat
  deriving DecidableEq, Repr

/-- The phase of an ID window (R43). -/
inductive WindowPhase where
  | none
  | settling
  | accumulating
  deriving DecidableEq, Repr

/-- What started an ID window (R43). -/
inductive WindowKind where
  | seize
  | answer
  deriving DecidableEq, Repr

/-- The ID window record of a line (R43). -/
structure IdWindow where
  phase : WindowPhase
  kind : Option WindowKind
  arrivals : Nat
  tipSum : Nat
  ringSum : Nat
  deriving DecidableEq, Repr

/-- The outcome of an ID window (R48). -/
inductive IdOutcome where
  | party
  | unknown
  | ambiguous
  deriving DecidableEq, Repr

/-- The ID result (R48). -/
structure IdResult where
  outcome : IdOutcome
  digit : Option Digit
  candidates : Nat
  tipAverage : Nat
  ringAverage : Nat
  deriving DecidableEq, Repr

/-- The kind of a ring job (R72). -/
inductive JobKind where
  | call
  | general
  | revert
  deriving DecidableEq, Repr

/-- The revert context (R126). -/
structure RevertContext where
  caller : Digit
  called : Digit
  ringBack : Bool
  retries : Nat
  waitSteps : Nat
  talkSteps : Nat
  job : Option JobId
  deriving DecidableEq, Repr

/-- The answered-job record (R119). -/
structure AnsweredJob where
  job : JobId
  kind : JobKind
  target : Option Digit
  deriving DecidableEq, Repr

/-- All that the part holds for one line: its profiles (R8), the Scan Bus Controller's record of its line circuit
(R23 to R25), its Line Context and its ID window. The derived values of R31 and R32 and the command of R28 are
functions of these fields (Flags.lean; log 15). -/
structure Line where
  active : Option Profile
  staged : Option Profile
  lastGood : Sample
  present : Bool
  missCount : Nat
  goodCount : Nat
  state : LineState
  baseline : Nat
  leaky : Bool
  applied : Option RingCode
  hook : HookFilter
  blanking : Nat
  tripScore : Nat
  window : IdWindow
  seizeResult : Option IdResult
  park : Option Nat
  revert : Option RevertContext
  answered : Option AnsweredJob
  deriving DecidableEq, Repr

/-! ## The Ring Scheduler (05, 06) -/

/-- The state of a job (R75), with the offset and placement stamp that only a PLACED job has (R72). -/
inductive JobPhase where
  | waiting
  | placed (offset : Pos) (stamp : Nat)
  | held
  deriving DecidableEq, Repr

/-- A record of the Job Table in use (R72); its job id is its place in the table. -/
structure Job where
  line : LineNo
  kind : JobKind
  target : Option Digit
  codes : List RingCode
  codeIndex : Nat
  remaining : Nat
  rung : Nat
  arrival : Nat
  phase : JobPhase
  skips : Nat
  starved : Bool
  waitingSteps : Nat
  rang : Bool
  deriving DecidableEq, Repr

/-- An entry of the placement list (R94). -/
structure Placement where
  job : JobId
  offset : Pos
  begun : Bool
  applied : Option RingCode
  deriving DecidableEq, Repr

/-- What the Ring Scheduler holds (R72 to R76, R92, R94). -/
structure Scheduler where
  jobs : Vector (Option Job) 32
  queue : List JobId
  arrivalCounter : Nat
  placementCounter : Nat
  position : Pos
  cells : Vector (Vector Nat 24) 4
  placements : List Placement
  deriving DecidableEq, Repr

/-! ## The generators and Hold Control (09, 10) -/

/-- The state of a channel (R143). -/
inductive ChannelState where
  | absent
  | off
  | starting
  | running
  | failed
  deriving DecidableEq, Repr

/-- The record of a channel (R143) with the levels of its two input signals (R144, R175). -/
structure Channel where
  state : ChannelState
  nominal : Nat
  derate : Nat
  recovery : Nat
  overloadMark : Bool
  idleCount : Nat
  startTimer : Option Nat
  grdy : Bool
  govl : Bool
  /-- The model's own mark: STARTING was entered within the boundary in progress, and the levels of GRDY and GOVL at
  the entry have not been taken yet (R144; log 8). -/
  entryMark : Bool
  deriving DecidableEq, Repr

inductive HoldState where
  | running
  | holdPending
  | held
  | resuming
  deriving DecidableEq, Repr

inductive HoldMode where
  | now
  | endOfBurst
  deriving DecidableEq, Repr

inductive HoldCause where
  | request
  | storm
  deriving DecidableEq, Repr

/-- The hold record (R157). -/
structure Hold where
  state : HoldState
  mode : Option HoldMode
  cause : Option HoldCause
  storm : Bool
  deriving DecidableEq, Repr

/-! ## The Message Port (11) -/

/-- Causes of the end of a job or of a reverting call, in the order of R178. -/
inductive EndCause where
  | answered
  | noAnswer
  | cancelled
  | noCapacity
  | genFailed
  | lineFault
  | blocked
  | preempted
  | callerReturned
  | retriesExhausted
  | cleared
  | released
  | callerStayed
  deriving DecidableEq, Repr

/-- The events of REVERT_EVENT (R141). -/
inductive RevertEventKind where
  | ringing
  | callerReturned
  | answered
  | abandoned
  | ended
  deriving DecidableEq, Repr

/-- The contents of REVERT_EVENT (R141); a field the event lacks is `none`. -/
structure RevertReport where
  line : LineNo
  event : RevertEventKind
  caller : Digit
  called : Digit
  ringBack : Bool
  retries : Nat
  cause : Option EndCause := none
  job : Option JobId := none
  rung : Option Nat := none
  remaining : Option Nat := none
  result : Option IdResult := none
  matched : Option Bool := none
  duration : Option Nat := none
  deriving DecidableEq, Repr

/-- Causes of GENERATOR_EVENT (R155), in the order of its table. -/
inductive GeneratorCause where
  | request
  | start
  | ready
  | startTimeout
  | overload
  | readyLost
  | recovery
  | idleStop
  deriving DecidableEq, Repr

/-- Causes of LINE_FAULT (R178). -/
inductive LineFaultCause where
  | scan
  | permanentLoop
  deriving DecidableEq, Repr

/-- What STARTED names as its cause (R175, R176). -/
inductive StartCause where
  | power
  | soft
  deriving DecidableEq, Repr

/-- A channel's state and the levels of GRDY and GOVL, as STARTED reports them (R175). -/
structure ChannelReport where
  state : ChannelState
  grdy : Bool
  govl : Bool
  deriving DecidableEq, Repr

/-- The thirteen indications, with the contents fixed when they are posted (R171, R178). -/
inductive Indication where
  | seize (line : LineNo) (result : IdResult)
  | digit (line : LineNo) (digit : Option Digit) (pulses : Nat) (error : Bool)
  | clear (line : LineNo) (left : LineState)
  | answer (job : AnsweredJob) (line : LineNo) (result : IdResult) (matched : Bool)
  | jobEnd (job : JobId) (line : LineNo) (kind : JobKind) (cause : EndCause) (rung remaining : Nat)
  | revertEvent (report : RevertReport)
  | generatorEvent (channel : Chan) (state : ChannelState) (derate : Nat) (cause : GeneratorCause)
  | lineFault (line : LineNo) (cause : LineFaultCause) (left : LineState)
  | lineRecovered (line : LineNo) (left : LineState)
  | leakChange (line : LineNo) (leaky : Bool) (leakage : Nat)
  | holdEvent (record : Hold)
  | started (cause : StartCause) (presence : BitVec 16) (channels : List ChannelReport) (hold : HoldState)
      (storm : Bool)
  | overrunNotice (lines : BitVec 16) (part : BitVec 2)
  deriving DecidableEq, Repr

/-- The statuses of replies, in the order of R178. -/
inductive Status where
  | ok
  | pending
  | busy
  | notReady
  | unknownRequest
  | badLength
  | badArgument
  | noProfile
  | profileInvalid
  | cadenceInvalid
  | inUse
  | lineBusy
  | lineBlocked
  | lineFault
  | noParty
  | noGenerator
  | loadExceeds
  | noJob
  | tooLate
  | callerUnknown
  | sameParty
  | notPermitted
  | stormActive
  | wrongState
  deriving DecidableEq, Repr

/-- The receiver (R167): HUNT, COUNT, or BODY with the count N and the characters collected so far. -/
inductive Receiver where
  | hunt
  | count
  | body (count : Byte) (collected : List Byte)
  deriving DecidableEq, Repr

/-- A request in the request buffer (R168), with the mark a soft reset puts on it (R176). -/
structure Request where
  type : Byte
  tag : Byte
  payload : List Byte
  marked : Bool
  deriving DecidableEq, Repr

/-- An entry of the BUSY list (R168). -/
structure BusyEntry where
  type : Byte
  tag : Byte
  deriving DecidableEq, Repr

/-- The reply in the reply slot (R169): the request's type and tag, the status and the further bytes. -/
structure Reply where
  type : Byte
  tag : Byte
  status : Status
  body : List Byte
  deriving DecidableEq, Repr

/-- Where the frame under way comes from (R170). -/
inductive Source where
  | busy
  | reply
  | indication
  deriving DecidableEq, Repr

/-- The frame under way on TXD: its source and its bytes, fixed when it begins (R170). -/
structure Transmission where
  source : Source
  frame : List Byte
  deriving DecidableEq, Repr

/-- The bit rates the straps select (R165). -/
inductive Rate where
  | r9600
  | r19200
  | r38400
  | r57600
  deriving DecidableEq, Repr

/-- What the Message Port holds (R165 to R176). -/
structure Port where
  rate : Rate
  receiver : Receiver
  requests : List Request
  busy : List BusyEntry
  reply : Option Reply
  transmitter : Option Transmission
  indications : List Indication
  masks : Byte
  lineFlags : Vector (BitVec 4) 16
  partFlags : BitVec 2
  overrun : Bool
  /-- The start-up state, with the cause its STARTED will carry (R175, R176); `none` outside it. -/
  startUp : Option StartCause
  deriving DecidableEq, Repr

/-- What the Scan Bus Controller holds for the round (R21, R22, R26, R160): the line circuit of the exchange in progress
and the command word sent in it (log 4), and whether the round's read of STORM is still to be made (log 5). -/
structure Scan where
  position : LineNo
  word : BitVec 16
  stormDue : Bool
  deriving DecidableEq, Repr

/-- The state of the part. -/
structure State where
  lines : Vector Line 16
  cadence : Vector (List Burst) 8
  sched : Scheduler
  channels : Vector Channel 4
  hold : Hold
  scan : Scan
  port : Port
  /-- How many bytes with a free value have been sent; the next one is `Config.freeByte freeCount` (log 12). -/
  freeCount : Nat
  /-- The commands that are waiting, first in, first out (log 1). -/
  pending : List Instr
  deriving DecidableEq, Repr

/-! ## Values after power-on reset -/

/-- The hook filter restarted on-hook, and its value after reset (R35, R42). -/
def HookFilter.onHook : HookFilter :=
  { offHook := false, disagreement := 0, breakCount := 0, makeCount := 0, pulseCount := 0 }

/-- The hook filter restarted off-hook, at the end of an ID window (R35, R50). -/
def HookFilter.offHookRestart : HookFilter :=
  { offHook := true, disagreement := 0, breakCount := 0, makeCount := 0, pulseCount := 0 }

/-- No window in progress (R43). -/
def IdWindow.empty : IdWindow :=
  { phase := .none, kind := none, arrivals := 0, tipSum := 0, ringSum := 0 }

/-- A line after power-on reset (R8, R26, R42, R43, R71, R113, R119, R142). -/
def Line.reset : Line where
  active := none
  staged := none
  lastGood := { loop := 0, tip := 0, ring := 0 }
  present := false
  missCount := 0
  goodCount := 0
  state := .unconfigured
  baseline := 0
  leaky := false
  applied := none
  hook := .onHook
  blanking := 0
  tripScore := 0
  window := .empty
  seizeResult := none
  park := none
  revert := none
  answered := none

/-- The Cadence Table after power-on reset (R4). -/
def resetCadence : Vector (List Burst) 8 :=
  #v[[⟨0, 6⟩], [⟨0, 2⟩, ⟨4, 2⟩], [⟨0, 5⟩, ⟨7, 2⟩], [⟨0, 2⟩, ⟨4, 5⟩],
     [⟨0, 2⟩, ⟨3, 2⟩, ⟨6, 2⟩], [⟨0, 5⟩, ⟨7, 5⟩], [⟨0, 12⟩], [⟨0, 2⟩]]

/-- The Ring Scheduler after either reset (R91, R112). -/
def Scheduler.reset : Scheduler where
  jobs := tabulate fun _ => none
  queue := []
  arrivalCounter := 0
  placementCounter := 0
  position := 0
  cells := tabulate fun _ => tabulate fun _ => 0
  placements := []

/-- A channel after power-on reset (R156), with the levels its signals stand at (log 13, 14). -/
def Channel.reset (grdy govl : Bool) : Channel where
  state := .absent
  nominal := 0
  derate := 0
  recovery := 0
  overloadMark := false
  idleCount := 0
  startTimer := none
  grdy := grdy
  govl := govl
  entryMark := false

/-- The hold record after either reset, from the storm flag (R164). -/
def Hold.reset (storm : Bool) : Hold :=
  if storm then { state := .held, mode := some .now, cause := some .storm, storm := true }
  else { state := .running, mode := none, cause := none, storm := false }

/-- The bit rate by the straps (R165). -/
def Rate.ofStraps : (rate1 rate0 : Bool) → Rate
  | false, false => .r9600
  | false, true => .r19200
  | true, false => .r38400
  | true, true => .r57600

/-- Every class masked (R172). -/
def allMasked : Byte := 0x1F#8

/-- The Message Port after power-on reset (R175). -/
def Port.reset (rate : Rate) : Port where
  rate := rate
  receiver := .hunt
  requests := []
  busy := []
  reply := none
  transmitter := none
  indications := []
  masks := allMasked
  lineFlags := tabulate fun _ => 0#4
  partFlags := 0#2
  overrun := false
  startUp := some .power

/-- The Scan Bus Controller after power-on reset (R26): line circuit 0, commanded DENIED (R22, R42), and the first
round's read of STORM made (R164). -/
def Scan.reset : Scan where
  position := 0
  word := 0x0C00#16
  stormDue := false

/-- The part after a power-on reset that reads these straps and this level of STORM, over the signal levels that stand
(log 14). -/
def State.powerOn (rate1 rate0 storm : Bool) (channels : Vector Channel 4) : State where
  lines := tabulate fun _ => Line.reset
  cadence := resetCadence
  sched := .reset
  channels := tabulate fun c => Channel.reset (channels.get c).grdy (channels.get c).govl
  hold := Hold.reset storm
  scan := .reset
  port := Port.reset (Rate.ofStraps rate1 rate0)
  freeCount := 0
  pending := []

/-- The part right after reset: straps low, STORM, GRDY and GOVL deasserted (log 13). -/
def State.reset : State :=
  State.powerOn false false false (tabulate fun _ => Channel.reset false false)

end Sys2Proof.Machine
end

