-- ==== Sys2Proof/Machine/Flags.lean ====
section
/-! DEFINITION. Values and flags the part derives from what it holds: code loads, trip and hook thresholds, the LEAKY
flag, the command to the line circuit, the effective budget of a channel, demand, ON sets, and the hook filter's step. -/

namespace Sys2Proof.Machine

/-! ## Codes and loads (R2, R3, R4) -/

/-- A party's bell sounds for a code: same channel and side, whatever the patterns (R2). -/
def RingCode.sounds (bell code : RingCode) : Bool :=
  bell.chan == code.chan && bell.side == code.side

/-- The load of a code in a profile (R3). -/
def Profile.codeLoad (p : Profile) (code : RingCode) : Nat :=
  ((p.parties.filter fun q => q.code.sounds code).map Party.load).sum

/-- The party of a profile with a digit. -/
def Profile.party (p : Profile) (d : Digit) : Option Party :=
  p.parties.find? fun q => q.digit == d

/-- A step of a job's cycle lies in ON of a burst list (R4). -/
def onStep (bursts : List Burst) (r : Pos) : Bool :=
  bursts.any fun b => decide (b.start ≤ r.val) && decide (r.val < b.start + b.length)

/-! ## Derived values of a line (R31 to R33) -/

/-- The leakage estimate b (R31). -/
def Line.leakage (l : Line) : Nat := (l.baseline + 8) / 16

/-- The hook threshold H (R31). -/
def Line.hookThreshold (l : Line) : Nat :=
  match l.active with
  | none => 0
  | some p => min 255 (l.leakage + p.hookMargin)

/-- The predicted answer current I_p (R31). -/
def Line.answerCurrent (l : Line) : Nat :=
  match l.active with
  | none => 0
  | some p => 192000 / (p.resistance + 400)

/-- The trip margin M (R31). -/
def Line.tripMargin (l : Line) : Nat :=
  match l.active with
  | none => 0
  | some _ => min 80 (max 8 (l.answerCurrent / 2))

/-- The off-step trip threshold T (R31). -/
def Line.tripThreshold (l : Line) : Nat :=
  match l.active with
  | none => 0
  | some _ => min 255 (l.leakage + l.tripMargin)

/-- The load of a code on a line, from the active profile (R3). -/
def Line.codeLoad (l : Line) (code : RingCode) : Nat :=
  match l.active with
  | none => 0
  | some p => p.codeLoad code

/-- The on-step trip threshold T_on for a code (R32). -/
def Line.onThreshold (l : Line) (code : RingCode) : Nat :=
  min 255 (l.tripThreshold + 2 * l.codeLoad code)

/-- The threshold a scored sample is compared with (R115). -/
def Line.scoreThreshold (l : Line) : Nat :=
  match l.applied with
  | some code => l.onThreshold code
  | none => l.tripThreshold

/-- The value R33 gives the LEAKY flag: set above the leak limit, clear at 4 su below it or less, kept between. -/
def Line.leakyNext (l : Line) : Bool :=
  match l.active with
  | none => false
  | some p =>
    if p.leakLimit < l.leakage then true
    else if l.leakage + 4 ≤ p.leakLimit then false
    else l.leaky

/-- The clear time of the active profile (R40). -/
def Line.clearTime (l : Line) : Nat :=
  match l.active with
  | none => 0
  | some p => p.clearTime

/-- The line is configured (R54). -/
def Line.configured (l : Line) : Bool := l.state != .unconfigured

/-! ## The command to the line circuit (R22, R28) -/

inductive FeedMode where
  | normal
  | id
  | ring
  | denied
  deriving DecidableEq, Repr

/-- The feed mode of R28. -/
def Line.feedMode (l : Line) : FeedMode :=
  match l.state with
  | .idle | .seized | .talk | .revertWait | .revertTalk | .linger => .normal
  | .ringing => if l.applied.isSome then .ring else .normal
  | .seizeId | .answerId => .id
  | .unconfigured | .lockout | .blocked | .fault => .denied

def FeedMode.bits : FeedMode → BitVec 2
  | .normal => 0
  | .id => 1
  | .ring => 2
  | .denied => 3

def Side.bit : Side → BitVec 1
  | .tip => 0
  | .ring => 1

/-- The command word of R22: address, feed mode, channel minus 1, side, seven zeros. Channel and side are zero outside
feed mode RING. -/
def commandWord (n : LineNo) (l : Line) : BitVec 16 :=
  let code : BitVec 3 :=
    match l.feedMode, l.applied with
    | .ring, some q => BitVec.ofNat 2 q.chan.val ++ q.side.bit
    | _, _ => 0
  BitVec.ofNat 4 n.val ++ l.feedMode.bits ++ code ++ (0 : BitVec 7)

/-! ## Channels (R96, R143) -/

/-- A job may be placed on a channel in this state (R97), and its requests pass the generator check (R77). -/
def ChannelState.inService : ChannelState → Bool
  | .off | .starting | .running => true
  | .absent | .failed => false

/-- The effective budget for a state, nominal budget and derate level (R96). -/
def budget (state : ChannelState) (nominal derate : Nat) : Nat :=
  if state.inService then
    match derate with
    | 0 => nominal
    | 1 => nominal * 3 / 4
    | _ => nominal * 2 / 4
  else 0

/-- E(c) (R96). -/
def Channel.effective (c : Channel) : Nat := budget c.state c.nominal c.derate

/-- GRUN is driven high (R143). -/
def Channel.grun (c : Channel) : Bool :=
  match c.state with
  | .starting | .running => true
  | .absent | .off | .failed => false

/-! ## Jobs (R76, R95) -/

/-- The job uses the channel (R95). -/
def Job.uses (j : Job) (c : Chan) : Bool := j.codes.any fun q => q.chan == c

/-- The job's current code (R102). -/
def Job.currentCode (j : Job) : Option RingCode := j.codes[j.codeIndex]?

def Job.isWaiting (j : Job) : Bool :=
  match j.phase with
  | .waiting => true
  | .placed _ _ | .held => false

def Job.isHeld (j : Job) : Bool :=
  match j.phase with
  | .held => true
  | .waiting | .placed _ _ => false

def Job.offset (j : Job) : Option Pos :=
  match j.phase with
  | .placed o _ => some o
  | .waiting | .held => none

/-- The class of a job in the Ring Request Queue (R76). -/
def JobKind.queueClass : JobKind → Nat
  | .general => 0
  | .call | .revert => 1

/-- The demand of a job on a line, at offset `o`, for channel `c` and step `k` (R95). -/
def demandOf (cadence : Vector (List Burst) 8) (l : Line) (j : Job) (o : Pos) (c : Chan) (k : Pos) : Nat :=
  (j.codes.filter fun q => q.chan == c && onStep (cadence.get q.pattern) (k - o)).foldl
    (fun m q => max m (l.codeLoad q)) 0

/-! ## The hook filter (R34, R36) -/

/-- What one good sample makes of the hook filter. -/
inductive HookEvent where
  /-- Nothing that another mechanism acts on. -/
  | quiet
  /-- The confirmed state changed to on-hook: a break begins. -/
  | breakBegan
  /-- The confirmed state changed to off-hook: a make begins, and a break of this count ended. -/
  | makeBegan (breakCount : Nat)
  /-- The make count reached 30. -/
  | makeReached
  /-- The break count reached the clear time. -/
  | breakReached
  deriving DecidableEq, Repr

/-- The make count at which a digit ends, where the count stops (R36, R38). -/
def makeLimit : Nat := 30

/-- One good sample, raw off-hook or on-hook, at the hook filter (R34, R36). A make is counted in every confirmed
off-hook state, a break only once one has begun (log 16). -/
def HookFilter.sample (f : HookFilter) (raw : Bool) (clearTime : Nat) : HookFilter × HookEvent :=
  if raw = f.offHook then
    let f := { f with disagreement := 0 }
    if f.offHook then
      ({ f with makeCount := min makeLimit (f.makeCount + 1) },
        if f.makeCount + 1 = makeLimit then .makeReached else .quiet)
    else if f.breakCount = 0 then (f, .quiet)
    else
      ({ f with breakCount := min clearTime (f.breakCount + 1) },
        if f.breakCount + 1 = clearTime then .breakReached else .quiet)
  else if f.disagreement + 1 < 2 then ({ f with disagreement := f.disagreement + 1 }, .quiet)
  else if raw then
    ({ f with offHook := true, disagreement := 0, breakCount := 0, makeCount := 2 }, .makeBegan f.breakCount)
  else
    ({ f with offHook := false, disagreement := 0, breakCount := 2, makeCount := 0 }, .breakBegan)

/-! ## Identification (R10, R47, R48) -/

/-- The quiet limit Q (R47). -/
def quietLimit : Nat := 4

/-- The tolerance of an ID nominal (R10, R47). -/
def tolerance (nominal : Nat) : Nat := max 3 (nominal / 5)

/-- Two currents differ by at most the tolerance of the nominal. -/
def withinTolerance (average nominal : Nat) : Bool :=
  decide (average ≤ nominal + tolerance nominal) && decide (nominal ≤ average + tolerance nominal)

/-- The party matches the averages of a window (R47). -/
def Party.matches (q : Party) (tip ring : Nat) : Bool :=
  match q.idSide, q.idNominal with
  | .tip, some nominal => withinTolerance tip nominal && decide (ring ≤ quietLimit)
  | .ring, some nominal => withinTolerance ring nominal && decide (tip ≤ quietLimit)
  | .tip, none | .ring, none => false
  | .none, _ => decide (tip ≤ quietLimit) && decide (ring ≤ quietLimit)

/-- The ID result for the averages of a window, against the parties of the active profile in list order (R48). -/
def classify (parties : List Party) (tip ring : Nat) : IdResult :=
  match parties.filter fun q => q.matches tip ring with
  | [] => { outcome := .unknown, digit := none, candidates := 0, tipAverage := tip, ringAverage := ring }
  | [q] => { outcome := .party, digit := some q.digit, candidates := 1, tipAverage := tip, ringAverage := ring }
  | found => { outcome := .ambiguous, digit := none, candidates := found.length, tipAverage := tip, ringAverage := ring }

/-- The result names the party with this digit. -/
def IdResult.names (r : IdResult) (d : Digit) : Bool :=
  r.outcome == .party && r.digit == some d

/-! ## Masks and summary flags (R171 to R173) -/

/-- The classes of indications. -/
inductive IndicationClass where
  | hook
  | call
  | revert
  | plant
  | hold
  deriving DecidableEq, Repr

/-- The bit of a class in the mask byte (R172, R178). -/
def IndicationClass.maskBit : IndicationClass → Nat
  | .hook => 0
  | .call => 1
  | .revert => 2
  | .plant => 3
  | .hold => 4

/-- Which summary flag an indication sets. -/
inductive FlagTarget where
  | line (n : LineNo) (bit : Nat)
  | part (bit : Nat)
  deriving DecidableEq, Repr

/-- The class of an indication and the summary flag it sets, by the table of R171; none for STARTED and
OVERRUN_NOTICE. -/
def Indication.class? : Indication → Option (IndicationClass × FlagTarget)
  | .seize n _ | .digit n _ _ _ | .clear n _ => some (.hook, .line n 0)
  | .answer _ n _ _ | .jobEnd _ n _ _ _ _ => some (.call, .line n 1)
  | .revertEvent r => some (.revert, .line r.line 2)
  | .lineFault n _ _ | .lineRecovered n _ | .leakChange n _ _ => some (.plant, .line n 3)
  | .generatorEvent _ _ _ _ => some (.plant, .part 0)
  | .holdEvent _ => some (.hold, .part 1)
  | .started _ _ _ _ _ | .overrunNotice _ _ => none

end Sys2Proof.Machine
end

