-- ==== Sys2Proof/Machine/Operands.lean ====
section
/-! DEFINITION. The words and frames at the part's interfaces: the 26-bit reply of a line circuit (R22, R23), the frame
and its check byte (R166), the payloads of requests with the checks of the Message Port (R169, R178), and the payloads
of replies and indications (R178). -/

namespace Sys2Proof.Machine

/-! ## The reply of a line circuit (R22, R23) -/

/-- The reply is good: presence read low, and an odd count of ones in bits 24 to 0 (R23). -/
def replyGood (reply : BitVec 26) : Bool :=
  !reply.getLsbD 25 && (List.range 25).countP (fun i => reply.getLsbD i) % 2 == 1

/-- The currents in a reply (R22): S in bits 24 to 17, G_t in 16 to 9, G_r in 8 to 1. -/
def replySample (reply : BitVec 26) : Sample where
  loop := (reply.extractLsb' 17 8).toNat
  tip := (reply.extractLsb' 9 8).toNat
  ring := (reply.extractLsb' 1 8).toNat

/-! ## Frames (R166) -/

/-- The start marker A5h. -/
def marker : Byte := 0xA5#8

/-- The sum of bytes mod 256. -/
def byteSum (bytes : List Byte) : Byte := bytes.foldl (· + ·) 0

/-- The frame of a type, tag and payload: marker, count, type, tag, payload and check byte (R166). -/
def frameOf (type tag : Byte) (payload : List Byte) : List Byte :=
  let body := toByte (payload.length + 2) :: type :: tag :: payload
  marker :: body ++ [-byteSum body]

/-- A 2-byte number, low byte first. -/
def le16 (n : Nat) : List Byte := [toByte n, toByte (n / 256)]

/-- A 4-byte number, low byte first. -/
def le32 (n : Nat) : List Byte :=
  [toByte n, toByte (n / 256), toByte (n / 65536), toByte (n / 16777216)]

/-- How a field marked "absent" is sent (R178). -/
def absentByte : Byte := 0xFF#8

/-- A single byte that may be absent (R178). -/
def orAbsent : Option Nat → Byte
  | some n => toByte n
  | none => absentByte

/-- A flag or a signal level as a byte: 1 where it is set or asserted. R178 gives 0 and 1 for some of these fields; that the
others (match flag, storm flag, overrun flag, GRDY and GOVL levels) are sent so too is the model's choice (log 22). -/
def flagByte (b : Bool) : Byte := if b then 1#8 else 0#8

/-! ## Requests (R169, R178) -/

/-- A request that has passed the four checks of R169. The party entries of PROFILE_LOAD and the bursts of CADENCE_LOAD
are judged by the Profile Store. -/
inductive HostRequest where
  | profileLoad (line : LineNo) (profile : RawProfile)
  | profileRead (line : LineNo) (staged : Bool)
  | profileClear (line : LineNo)
  | cadenceLoad (pattern : PatternNo) (bursts : List Burst)
  | cadenceRead (pattern : PatternNo)
  | ring (line : LineNo) (digit : Digit) (cycles : Nat)
  | generalRing (line : LineNo) (cycles : Nat)
  | cancel (line : LineNo)
  | revert (line : LineNo) (called : Digit)
  | release (line : LineNo)
  | block (line : LineNo)
  | unblock (line : LineNo)
  | jobRead (job : JobId)
  | phaseRead (channel : Chan)
  | generatorSet (channel : Chan) (nominal : Nat)
  | generatorReset (channel : Chan)
  | hold (mode : HoldMode)
  | resume
  | maskSet (masks : Byte)
  | summaryRead
  | summaryAckLine (line : LineNo) (classes : BitVec 4)
  | summaryAckPart (classes : BitVec 2)
  | lineStatus (line : LineNo)
  | softReset
  deriving DecidableEq, Repr

/-- A byte as a number below `n`, where it is one. -/
def byteBelow (n : Nat) (b : Byte) : Option (Fin n) :=
  if h : b.toNat < n then some ⟨b.toNat, h⟩ else none

/-- The channel a byte names: 1 to 4 (R1, R178). -/
def channelOf (b : Byte) : Option Chan :=
  if h : 1 ≤ b.toNat ∧ b.toNat ≤ 4 then some ⟨b.toNat - 1, by omega⟩ else none

/-- The party entries of a profile payload, eight bytes each (R178). -/
def readParties : List Byte → List RawParty
  | d :: c :: s :: p :: r :: i :: n :: v :: rest => ⟨d, c, s, p, r, i, n, v⟩ :: readParties rest
  | _ => []

/-- The eight bytes of a party entry (R178). -/
def RawParty.bytes (q : RawParty) : List Byte :=
  [q.digit, q.channel, q.side, q.pattern, q.load, q.idSide, q.idNominal, q.revertPermitted]

/-- The profile layout of R178. -/
def RawProfile.bytes (p : RawProfile) : List Byte :=
  [p.resistance.extractLsb' 0 8, p.resistance.extractLsb' 8 8, p.hookMargin, p.leakLimit, p.clearTime,
    p.ringTimeout, p.revertWait, p.parkTime.extractLsb' 0 8, p.parkTime.extractLsb' 8 8, toByte p.parties.length] ++
  p.parties.flatMap RawParty.bytes

/-- The pairs of start and length of a CADENCE_LOAD (R178). -/
def readBursts : List Byte → List Burst
  | start :: length :: rest => ⟨start.toNat, length.toNat⟩ :: readBursts rest
  | _ => []

def burstBytes (bursts : List (Byte × Byte)) : List Byte := bursts.flatMap fun b => [b.1, b.2]

/-- A request of a line, from the line byte. -/
def withLine (line : Byte) (f : LineNo → HostRequest) : Except Status HostRequest :=
  match byteBelow 16 line with
  | some n => .ok (f n)
  | none => .error .badArgument

/-- A request of a channel, from the channel byte. -/
def withChannel (channel : Byte) (f : Chan → HostRequest) : Except Status HostRequest :=
  match channelOf channel with
  | some c => .ok (f c)
  | none => .error .badArgument

/-- PROFILE_LOAD: length 11 + 8n for the count n it carries, line over 15 or a digit over 9 refused (R11, R178). -/
def readProfileLoad : List Byte → Except Status HostRequest
  | line :: r0 :: r1 :: margin :: leak :: clear :: timeout :: wait :: p0 :: p1 :: count :: rest =>
    if rest.length = 8 * count.toNat then
      let parties := readParties rest
      if parties.all (fun q => decide (q.digit.toNat ≤ 9)) then
        withLine line fun n =>
          .profileLoad n
            { resistance := r1 ++ r0, hookMargin := margin, leakLimit := leak, clearTime := clear,
              ringTimeout := timeout, revertWait := wait, parkTime := p1 ++ p0, parties := parties }
      else .error .badArgument
    else .error .badLength
  | _ => .error .badLength

/-- CADENCE_LOAD: length 2 + 2k for the count k it carries, pattern over 7 refused (R6, R178). -/
def readCadenceLoad : List Byte → Except Status HostRequest
  | pattern :: count :: rest =>
    if rest.length = 2 * count.toNat then
      match byteBelow 8 pattern with
      | some p => .ok (.cadenceLoad p (readBursts rest))
      | none => .error .badArgument
    else .error .badLength
  | _ => .error .badLength

/-- SUMMARY_ACK: the target, 0 to 15 a line, 16 the part, and the classes its set allows (R173). -/
def readSummaryAck (target classes : Byte) : Except Status HostRequest :=
  match byteBelow 16 target with
  | some n => if classes.toNat < 16 then .ok (.summaryAckLine n (classes.setWidth 4)) else .error .badArgument
  | none =>
    if target.toNat = 16 ∧ classes.toNat < 4 then .ok (.summaryAckPart (classes.setWidth 2)) else .error .badArgument

/-- Checks 2 to 4 of R169 on a request's type and payload, by the layouts of R178: type, then length, then arguments. -/
def readRequest (type : Byte) (payload : List Byte) : Except Status HostRequest :=
  match type.toNat with
  | 0x01 => readProfileLoad payload
  | 0x02 =>
    match payload with
    | [line, selector] =>
      if selector.toNat ≤ 1 then withLine line fun n => .profileRead n (selector.toNat == 1) else .error .badArgument
    | _ => .error .badLength
  | 0x03 => match payload with | [line] => withLine line .profileClear | _ => .error .badLength
  | 0x04 => readCadenceLoad payload
  | 0x05 =>
    match payload with
    | [pattern] => match byteBelow 8 pattern with | some p => .ok (.cadenceRead p) | none => .error .badArgument
    | _ => .error .badLength
  | 0x06 =>
    match payload with
    | [line, digit, cycles] =>
      match byteBelow 10 digit with
      | some d => if cycles.toNat ≤ 40 then withLine line fun n => .ring n d cycles.toNat else .error .badArgument
      | none => .error .badArgument
    | _ => .error .badLength
  | 0x07 =>
    match payload with
    | [line, cycles] =>
      if cycles.toNat ≤ 40 then withLine line fun n => .generalRing n cycles.toNat else .error .badArgument
    | _ => .error .badLength
  | 0x08 => match payload with | [line] => withLine line .cancel | _ => .error .badLength
  | 0x09 =>
    match payload with
    | [line, called] =>
      match byteBelow 10 called with
      | some d => withLine line fun n => .revert n d
      | none => .error .badArgument
    | _ => .error .badLength
  | 0x0A => match payload with | [line] => withLine line .release | _ => .error .badLength
  | 0x0B => match payload with | [line] => withLine line .block | _ => .error .badLength
  | 0x0C => match payload with | [line] => withLine line .unblock | _ => .error .badLength
  | 0x0D =>
    match payload with
    | [job] => match byteBelow 32 job with | some j => .ok (.jobRead j) | none => .error .badArgument
    | _ => .error .badLength
  | 0x0E => match payload with | [channel] => withChannel channel .phaseRead | _ => .error .badLength
  | 0x0F =>
    match payload with
    | [channel, nominal] =>
      if nominal.toNat ≤ 60 then withChannel channel fun c => .generatorSet c nominal.toNat else .error .badArgument
    | _ => .error .badLength
  | 0x10 => match payload with | [channel] => withChannel channel .generatorReset | _ => .error .badLength
  | 0x11 =>
    match payload with
    | [mode] =>
      match mode.toNat with
      | 0 => .ok (.hold .now)
      | 1 => .ok (.hold .endOfBurst)
      | _ => .error .badArgument
    | _ => .error .badLength
  | 0x12 => match payload with | [] => .ok .resume | _ => .error .badLength
  | 0x13 =>
    match payload with
    | [masks] => if masks.toNat < 32 then .ok (.maskSet masks) else .error .badArgument
    | _ => .error .badLength
  | 0x14 => match payload with | [] => .ok .summaryRead | _ => .error .badLength
  | 0x15 => match payload with | [target, classes] => readSummaryAck target classes | _ => .error .badLength
  | 0x16 => match payload with | [line] => withLine line .lineStatus | _ => .error .badLength
  | 0x17 => match payload with | [] => .ok .softReset | _ => .error .badLength
  | _ => .error .unknownRequest

/-! ## Replies and indications (R178)

Enumerations are sent as their place in the order of R178, which is the order of their constructors. -/

/-- The type of a reply: its request's type plus 80h, mod 256 (R166). -/
def replyType (type : Byte) : Byte := type + 0x80#8

/-- The type code of an indication, 40h to 4Ch in the order of R178. -/
def Indication.typeCode (i : Indication) : Byte := toByte (0x40 + i.ctorIdx)

def RingCode.bytes (q : RingCode) : List Byte :=
  [toByte (q.chan.val + 1), toByte q.side.ctorIdx, toByte q.pattern.val]

/-- The five bytes of an ID result (R178). Of an absent one R178 gives the first byte only; the others are the free
values from number `free` on (log 12). -/
def resultBytes (r : Option IdResult) (free : Nat) : List Byte :=
  match r with
  | some r =>
    [toByte r.outcome.ctorIdx, orAbsent (r.digit.map Fin.val), toByte r.candidates, toByte r.tipAverage,
      toByte r.ringAverage]
  | none =>
    [absentByte, Config.freeByte free, Config.freeByte (free + 1), Config.freeByte (free + 2),
      Config.freeByte (free + 3)]

/-- How many free values an encoding of an ID result uses. -/
def resultFree (r : Option IdResult) : Nat := if r.isSome then 0 else 4

def Party.bytes (q : Party) : List Byte :=
  toByte q.digit.val :: q.code.bytes ++
    [toByte q.load, toByte q.idSide.ctorIdx, toByte (q.idNominal.getD 0), flagByte q.revertPermitted]

/-- The profile layout of R178. -/
def Profile.bytes (p : Profile) : List Byte :=
  le16 p.resistance ++
  [toByte p.hookMargin, toByte p.leakLimit, toByte p.clearTime, toByte p.ringTimeout, toByte p.revertWait] ++
  le16 p.parkTime ++ [toByte p.parties.length] ++ p.parties.flatMap Party.bytes

/-- The job state of R178. -/
def JobPhase.code (p : JobPhase) : Byte := toByte p.ctorIdx

/-- The JOB_READ fields of R178. That bits 2 to 7 of the flags byte are sent as 0 is the model's choice (log 29). -/
def Job.bytes (id : JobId) (j : Job) : List Byte :=
  [toByte id.val, toByte j.line.val, toByte j.kind.ctorIdx, orAbsent (j.target.map Fin.val), toByte j.codes.length] ++
  j.codes.flatMap RingCode.bytes ++
  [toByte j.codeIndex, toByte j.remaining, toByte j.rung] ++ le32 j.arrival ++
  [j.phase.code, orAbsent (j.offset.map Fin.val)] ++
  le32 (match j.phase with | .placed _ stamp => stamp | .waiting | .held => 0) ++
  [toByte j.skips, flagByte j.starved ||| (flagByte j.rang <<< 1)] ++ le16 j.waitingSteps

/-- The context fields of LINE_STATUS (R178): absent where no context is present. -/
def contextBytes : Option RevertContext → List Byte
  | some c =>
    [1#8, toByte c.caller.val, toByte c.called.val, flagByte c.ringBack, toByte c.retries, toByte c.waitSteps] ++
    le16 c.talkSteps ++ [orAbsent (c.job.map Fin.val)]
  | none => 0#8 :: List.replicate 8 absentByte

/-- The payload of REVERT_EVENT (R178). -/
def RevertReport.bytes (r : RevertReport) (free : Nat) : List Byte :=
  [toByte r.line.val, toByte r.event.ctorIdx, toByte r.caller.val, toByte r.called.val, flagByte r.ringBack,
    toByte r.retries, orAbsent (r.cause.map EndCause.ctorIdx), orAbsent (r.job.map Fin.val), orAbsent r.rung,
    orAbsent r.remaining] ++
  resultBytes r.result free ++
  [orAbsent (r.matched.map Bool.toNat)] ++
  (match r.duration with | some d => le16 d | none => [absentByte, absentByte])

/-- The payload of an indication (R178). That bits 2 to 7 of the part flags of OVERRUN_NOTICE are sent as 0 is the model's
choice (log 29). -/
def Indication.bytes (i : Indication) (free : Nat) : List Byte :=
  match i with
  | .seize n r => toByte n.val :: resultBytes (some r) free
  | .digit n d pulses error => [toByte n.val, orAbsent (d.map Fin.val), toByte pulses, flagByte error]
  | .clear n left => [toByte n.val, toByte left.ctorIdx]
  | .answer a n r matched =>
    [toByte a.job.val, toByte n.val, toByte a.kind.ctorIdx, orAbsent (a.target.map Fin.val)] ++
    resultBytes (some r) free ++ [flagByte matched]
  | .jobEnd id n kind cause rung remaining =>
    [toByte id.val, toByte n.val, toByte kind.ctorIdx, toByte cause.ctorIdx, toByte rung, toByte remaining]
  | .revertEvent r => r.bytes free
  | .generatorEvent c state derate cause =>
    [toByte (c.val + 1), toByte state.ctorIdx, toByte derate, toByte cause.ctorIdx]
  | .lineFault n cause left => [toByte n.val, toByte cause.ctorIdx, toByte left.ctorIdx]
  | .lineRecovered n left => [toByte n.val, toByte left.ctorIdx]
  | .leakChange n leaky leakage => [toByte n.val, flagByte leaky, toByte leakage]
  | .holdEvent h =>
    [toByte h.state.ctorIdx, orAbsent (h.mode.map HoldMode.ctorIdx), orAbsent (h.cause.map HoldCause.ctorIdx),
      flagByte h.storm]
  | .started cause presence channels hold storm =>
    toByte cause.ctorIdx :: le16 presence.toNat ++
    channels.flatMap (fun c => [toByte c.state.ctorIdx, flagByte c.grdy, flagByte c.govl]) ++
    [toByte hold.ctorIdx, flagByte storm]
  | .overrunNotice lines part => le16 lines.toNat ++ [toByte part.toNat]

/-- How many free values the payload of an indication uses. -/
def Indication.free (i : Indication) : Nat :=
  match i with
  | .revertEvent r => resultFree r.result
  | .seize _ _ | .digit _ _ _ _ | .clear _ _ | .answer _ _ _ _ | .jobEnd _ _ _ _ _ _ | .generatorEvent _ _ _ _
  | .lineFault _ _ _ | .lineRecovered _ _ | .leakChange _ _ _ | .holdEvent _ | .started _ _ _ _ _
  | .overrunNotice _ _ => 0

end Sys2Proof.Machine
end

