-- ==== Sys2Proof/Machine/Ops.lean ====
section
/-! DEFINITION. The shared operations on lines, jobs, the Ring Phase Table, channels and the Message Port: what the
meanings of the commands are built from. -/

namespace Sys2Proof.Machine

/-! ## Access -/

def State.line (s : State) (n : LineNo) : Line := s.lines.get n

def State.setLine (s : State) (n : LineNo) (l : Line) : State := { s with lines := replaceAt s.lines n l }

def State.channel (s : State) (c : Chan) : Channel := s.channels.get c

def State.setChannel (s : State) (c : Chan) (ch : Channel) : State :=
  { s with channels := replaceAt s.channels c ch }

def State.job (s : State) (id : JobId) : Option Job := s.sched.jobs.get id

def State.setJob (s : State) (id : JobId) (j : Option Job) : State :=
  { s with sched := { s.sched with jobs := replaceAt s.sched.jobs id j } }

def State.setQueue (s : State) (q : List JobId) : State := { s with sched := { s.sched with queue := q } }

def State.setPlacements (s : State) (ps : List Placement) : State :=
  { s with sched := { s.sched with placements := ps } }

def State.setCells (s : State) (cells : Vector (Vector Nat 24) 4) : State :=
  { s with sched := { s.sched with cells := cells } }

/-- The committed load of a cell of the Ring Phase Table (R94). -/
def State.cell (s : State) (c : Chan) (k : Pos) : Nat := (s.sched.cells.get c).get k

/-! ## Posting indications (R171) -/

/-- Step 1 of R171: the summary flag of the indication's class is set. -/
def Port.raise (p : Port) (target : FlagTarget) : Port :=
  match target with
  | .line n bit =>
    { p with lineFlags := replaceAt p.lineFlags n (p.lineFlags.get n ||| BitVec.ofNat 4 (2 ^ bit)) }
  | .part bit => { p with partFlags := p.partFlags ||| BitVec.ofNat 2 (2 ^ bit) }

/-- The most indications the Indication Queue holds (R171). -/
def queueLimit : Nat := 32

/-- Steps 3 and 4 of R171: dropped with the overrun flag set where the queue is full, queued otherwise. -/
def Port.enqueue (p : Port) (i : Indication) : Port :=
  if p.indications.length < queueLimit then { p with indications := p.indications ++ [i] }
  else { p with overrun := true }

/-- The class is masked (R172). -/
def Port.masked (p : Port) (c : IndicationClass) : Bool := p.masks.getLsbD c.maskBit

/-- A posting at the Message Port (R171). -/
def Port.post (p : Port) (i : Indication) : Port :=
  match i.class? with
  | none => p.enqueue i
  | some (c, target) => if p.masked c then p.raise target else (p.raise target).enqueue i

def State.post (s : State) (i : Indication) : State := { s with port := s.port.post i }

/-! ## Line states (R28, R55, R56) -/

/-- What is discarded with the state left (R55): the applied code, the blanking count and the trip score of RINGING
(R28, R107, R113), the window of an ID state and the answered-job record (R51, R119), a digit in progress (R39), the
park timer of LINGER. -/
def Line.leave (l : Line) : Line :=
  match l.state with
  | .ringing => { l with applied := none, blanking := 0, tripScore := 0 }
  | .seizeId | .answerId => { l with window := .empty, answered := none }
  | .seized => { l with hook := { l.hook with pulseCount := 0 } }
  | .linger => { l with park := none }
  | .unconfigured | .idle | .talk | .revertWait | .revertTalk | .lockout | .blocked | .fault => l

/-- A change of line state (R55). -/
def Line.enter (l : Line) (state : LineState) : Line := { l.leave with state := state }

/-- A pending profile becomes the active profile (R17). -/
def Line.commit (l : Line) : Line :=
  match l.staged with
  | some p => { l with active := some p, staged := none }
  | none => l

/-- The LEAKY flag is brought up to the leakage estimate and the leak limit, with LEAK_CHANGE on a change (R33). -/
def State.updateLeaky (s : State) (n : LineNo) : State :=
  let l := s.line n
  if l.leakyNext = l.leaky then s
  else (s.setLine n { l with leaky := l.leakyNext }).post (.leakChange n l.leakyNext l.leakage)

/-- The Line Context at an entry to IDLE (R56). -/
def Line.toIdle (l : Line) : Line :=
  { (l.enter .idle).commit with hook := .onHook, park := none, revert := none }

/-- An entry to IDLE (R56). What it posts, a LEAK_CHANGE of the commit, stands after what its caller posts first
(R55, R85, R141; log 20). -/
def State.enterIdle (s : State) (n : LineNo) : State := (s.setLine n (s.line n).toIdle).updateLeaky n

/-- An entry to RINGING: no code applied, trip score 0 (R78, R113). -/
def Line.toRinging (l : Line) : Line :=
  { l.enter .ringing with applied := none, blanking := 0, tripScore := 0 }

/-- The start of an ID window of a kind, at the entry to its state (R44). -/
def Line.toWindow (l : Line) (state : LineState) (kind : WindowKind) : Line :=
  { l.enter state with window := { phase := .settling, kind := some kind, arrivals := 0, tipSum := 0, ringSum := 0 } }

/-- An apply request taken in RINGING (R28, R107); `none` where it is refused. -/
def Line.takeApply (l : Line) (code : RingCode) : Option Line :=
  if l.state = .ringing then some { l with applied := some code, blanking := 2 } else none

/-- A remove request (R28, R107): it changes nothing where no code is applied. -/
def Line.takeRemove (l : Line) : Line :=
  if l.applied.isSome then { l with applied := none, blanking := 2 } else l

/-! ## The Job Table and the Ring Request Queue (R73, R74, R76) -/

/-- Every job id in increasing order. -/
def allJobs : List JobId := List.finRange 32

/-- The line's WAITING or PLACED job (R73). -/
def State.activeJob (s : State) (n : LineNo) : Option JobId :=
  allJobs.find? fun id =>
    match s.job id with
    | some j => j.line == n && !j.isHeld
    | none => false

/-- The line's HELD job (R73). -/
def State.heldJob (s : State) (n : LineNo) : Option JobId :=
  allJobs.find? fun id =>
    match s.job id with
    | some j => j.line == n && j.isHeld
    | none => false

/-- The free record with the lowest number (R73). -/
def State.freeRecord (s : State) : Option JobId := allJobs.find? fun id => (s.job id).isNone

/-- The job stands before the other in the Ring Request Queue: class, then arrival stamp (R76). -/
def State.queuedBefore (s : State) (a b : JobId) : Bool :=
  match s.job a, s.job b with
  | some x, some y =>
    decide (x.kind.queueClass < y.kind.queueClass) ||
      (x.kind.queueClass == y.kind.queueClass && decide (x.arrival < y.arrival))
  | _, _ => false

/-- An item takes its place in an ordered list. -/
def insertBy {α : Type} (before : α → α → Bool) (x : α) : List α → List α
  | [] => [x]
  | y :: ys => if before x y then x :: y :: ys else y :: insertBy before x ys

/-- A WAITING job joins the queue at the place its class and arrival stamp give it (R76). -/
def State.joinQueue (s : State) (id : JobId) : State :=
  s.setQueue (insertBy s.queuedBefore id s.sched.queue)

/-- A job leaves the queue, and those behind it close up (R76). -/
def State.leaveQueue (s : State) (id : JobId) : State := s.setQueue (s.sched.queue.filter (· != id))

/-- The largest stamp and counter value (R74). -/
def stampLimit : Nat := 4294967295

/-- How many jobs in use a test holds of. -/
def State.countJobs (s : State) (test : Job → Bool) : Nat :=
  allJobs.countP fun id => match s.job id with | some j => test j | none => false

/-- The arrival stamps renumbered 0, 1, 2 … in their order, and the counter after them (R74). -/
def State.renumberArrivals (s : State) : State :=
  { s with
    sched :=
      { s.sched with
        jobs := tabulate fun id =>
          (s.job id).map fun j => { j with arrival := s.countJobs fun other => decide (other.arrival < j.arrival) }
        arrivalCounter := s.countJobs fun _ => true } }

/-- The placement stamp of a PLACED job (R72). -/
def Job.stamp (j : Job) : Option Nat :=
  match j.phase with
  | .placed _ stamp => some stamp
  | .waiting | .held => none

/-- The job is PLACED with a stamp below this one. -/
def Job.stampBelow (stamp : Nat) (j : Job) : Bool :=
  match j.stamp with
  | some t => decide (t < stamp)
  | none => false

/-- The placement stamps renumbered in their order, and the counter after them (R74). -/
def State.renumberPlacements (s : State) : State :=
  { s with
    sched :=
      { s.sched with
        jobs := tabulate fun id =>
          (s.job id).map fun j =>
            match j.phase with
            | .placed o stamp => { j with phase := .placed o (s.countJobs (Job.stampBelow stamp)) }
            | .waiting | .held => j
        placementCounter := s.countJobs fun j => j.stamp.isSome } }

/-- The record of a new job (R72). -/
def Job.new (n : LineNo) (kind : JobKind) (target : Option Digit) (codes : List RingCode) (cycles arrival : Nat) :
    Job where
  line := n
  kind := kind
  target := target
  codes := codes
  codeIndex := 0
  remaining := cycles
  rung := 0
  arrival := arrival
  phase := .waiting
  skips := 0
  starved := false
  waitingSteps := 0
  rang := false

/-- The creation of a job in the lowest free record, with its arrival stamp and its place in the queue (R72 to R76);
`none` where no record is free, which R73 says cannot come about (log 18). -/
def State.createJob (s : State) (n : LineNo) (kind : JobKind) (target : Option Digit) (codes : List RingCode)
    (cycles : Nat) : Option (JobId × State) :=
  match s.freeRecord with
  | none => none
  | some id =>
    let s := if s.sched.arrivalCounter = stampLimit then s.renumberArrivals else s
    let s := s.setJob id (some (Job.new n kind target codes cycles s.sched.arrivalCounter))
    let s := { s with sched := { s.sched with arrivalCounter := s.sched.arrivalCounter + 1 } }
    some (id, s.joinQueue id)

/-! ## Hold Control's part in removals (R106, R159) -/

/-- The applied count (R94). -/
def State.appliedCount (s : State) : Nat := s.sched.placements.countP fun e => e.applied.isSome

/-- A change of the hold record, with its HOLD_EVENT (R163). -/
def State.changeHold (s : State) (h : Hold) : State := { s with hold := h }.post (.holdEvent h)

/-- The report that no burst remains: in HOLD_PENDING with nothing applied, the state becomes HELD (R106, R159). -/
def State.reportNoBurst (s : State) : State :=
  if s.hold.state = .holdPending ∧ s.appliedCount = 0 then s.changeHold { s.hold with state := .held } else s

/-! ## The Ring Phase Table (R94, R95, R101, R108) -/

/-- The demand of a job at an offset, for a channel and step (R95). -/
def State.demand (s : State) (j : Job) (o : Pos) (c : Chan) (k : Pos) : Nat :=
  demandOf s.cadence (s.line j.line) j o c k

/-- The cells with the job's demand at an offset added. -/
def State.addDemand (s : State) (j : Job) (o : Pos) : State :=
  s.setCells (tabulate fun c => tabulate fun k => s.cell c k + s.demand j o c k)

/-- The cells with the job's demand at an offset subtracted. -/
def State.subtractDemand (s : State) (j : Job) (o : Pos) : State :=
  s.setCells (tabulate fun c => tabulate fun k => s.cell c k - s.demand j o c k)

/-- The placement list with one job's entry changed. -/
def State.modifyPlacement (s : State) (id : JobId) (f : Placement → Placement) : State :=
  s.setPlacements (s.sched.placements.map fun e => if e.job = id then f e else e)

/-- The placement entry of a job. -/
def State.placement (s : State) (id : JobId) : Option Placement := s.sched.placements.find? fun e => e.job == id

/-- The remove request for the code of a job's entry, where it holds one (R105, R108), with the report of R106. -/
def State.removeCode (s : State) (id : JobId) : State :=
  match s.placement id, s.job id with
  | some e, some j =>
    if e.applied.isSome then
      let s := s.modifyPlacement id fun e => { e with applied := none }
      (s.setLine j.line (s.line j.line).takeRemove).reportNoBurst
    else s
  | _, _ => s

/-- The remove requests for the codes of the entries a test holds of (R108). -/
def State.removeCodes (s : State) (test : Placement → Bool) : State :=
  (s.sched.placements.filter test).foldl (fun s e => s.removeCode e.job) s

/-- The unplacement of a PLACED job, into the phase it goes to (R101). -/
def State.unplace (s : State) (id : JobId) (phase : JobPhase) : State :=
  match s.job id with
  | some j =>
    match j.phase with
    | .placed o _ =>
      let s := (s.subtractDemand j o).removeCode id
      let s := s.setPlacements (s.sched.placements.filter fun e => e.job != id)
      s.setJob id (some { j with phase := phase, rang := false })
    | .waiting | .held => s
  | none => s

/-- The unplacement of a job that returns to WAITING and rejoins the queue (R101, R150). -/
def State.unplaceToQueue (s : State) (id : JobId) : State := (s.unplace id .waiting).joinQueue id

/-! ## Ends of jobs and reverting calls (R82, R85, R139 to R141) -/

/-- A REVERT_EVENT of a context, with the further fields of `fill` (R141). -/
def RevertContext.report (c : RevertContext) (n : LineNo) (event : RevertEventKind)
    (fill : RevertReport → RevertReport) : Indication :=
  .revertEvent
    (fill { line := n, event := event, caller := c.caller, called := c.called, ringBack := c.ringBack,
            retries := c.retries })

/-- The duration a call reports, in seconds (R138). -/
def RevertContext.duration (c : RevertContext) : Nat := c.talkSteps / 4

/-- The end of a reverting call: the context is deleted, and the REVERT_EVENT posted (R139 to R141). -/
def State.endRevert (s : State) (n : LineNo) (event : RevertEventKind) (cause : EndCause)
    (fill : RevertReport → RevertReport) : State :=
  match (s.line n).revert with
  | some c =>
    (s.setLine n { s.line n with revert := none }).post
      (c.report n event fun r => fill { r with cause := some cause })
  | none => s

/-- The Revert Sequencer's part in the end of a REVERT job: at a trip the context loses its job id (R134), at any other
cause the call ends (R139). -/
def State.revertJobEnded (s : State) (id : JobId) (j : Job) (cause : EndCause) : State :=
  if cause = .answered then
    match (s.line j.line).revert with
    | some c => s.setLine j.line { s.line j.line with revert := some { c with job := none } }
    | none => s
  else
    s.endRevert j.line .ended cause fun r =>
      { r with job := some id, rung := some j.rung, remaining := some j.remaining }

/-- Steps 1 to 4 of R85: unplacement, queue, record, report. -/
def State.endRecord (s : State) (id : JobId) (cause : EndCause) : State :=
  match s.job id with
  | none => s
  | some j =>
    let s :=
      match j.phase with
      | .placed _ _ => s.unplace id .held
      | .waiting => s.leaveQueue id
      | .held => s
    let s := s.setJob id none
    match j.kind with
    | .revert => s.revertJobEnded id j cause
    | .call | .general =>
      if cause = .answered then s else s.post (.jobEnd id j.line j.kind cause j.rung j.remaining)

/-- Some channel of the code list is ABSENT or FAILED. -/
def State.channelOut (s : State) (codes : List RingCode) : Bool :=
  codes.any fun q => !(s.channel q.chan).state.inService

/-- A held job returns to WAITING and rejoins the queue by its stamp (R82). -/
def State.returnHeld (s : State) (id : JobId) : State :=
  match s.job id with
  | some j => (s.setJob id (some { j with phase := .waiting })).joinQueue id
  | none => s

/-- What becomes of the line's held job when its GENERAL job ends with a cause (R82). -/
def State.heldAfter (s : State) (n : LineNo) (cause : EndCause) : State :=
  match s.heldJob n with
  | none => s
  | some id =>
    match cause with
    | .noAnswer | .cancelled | .noCapacity | .genFailed =>
      match s.job id with
      | some j => if s.channelOut j.codes then s.endRecord id .genFailed else s.returnHeld id
      | none => s
    | .answered => s.endRecord id .preempted
    | .lineFault => s.endRecord id .lineFault
    | .blocked => s.endRecord id .blocked
    | .preempted | .callerReturned | .retriesExhausted | .cleared | .released | .callerStayed => s

/-- The causes at which a line left with no job enters IDLE (R85 step 6). -/
def EndCause.toIdle : EndCause → Bool
  | .noAnswer | .cancelled | .noCapacity | .genFailed => true
  | .answered | .lineFault | .blocked | .preempted | .callerReturned | .retriesExhausted | .cleared | .released
  | .callerStayed => false

/-- The end of a job (R85): steps 1 to 4, the held job, the line. -/
def State.endJob (s : State) (id : JobId) (cause : EndCause) : State :=
  match s.job id with
  | none => s
  | some j =>
    let s := s.endRecord id cause
    let s := if j.kind = .general then s.heldAfter j.line cause else s
    if cause.toIdle ∧ (s.activeJob j.line).isNone ∧ (s.line j.line).state = .ringing then s.enterIdle j.line else s

/-! ## BLOCK and the scan fault (R65, R68, R87, R140) -/

/-- The further contents of the REVERT_EVENT of a call ended by BLOCK or a scan fault, by the state left (R140). -/
def Line.revertLeft (l : Line) (r : RevertReport) : RevertReport :=
  match l.state with
  | .answerId => { r with job := l.answered.map AnsweredJob.job }
  | .revertTalk => { r with duration := l.revert.map RevertContext.duration }
  | .unconfigured | .idle | .seizeId | .seized | .ringing | .talk | .revertWait | .linger | .lockout | .blocked
  | .fault => r

/-- The jobs of a line end with a cause, the GENERAL job before the HELD job (R87). -/
def State.endLineJobs (s : State) (n : LineNo) (cause : EndCause) : State :=
  let s := match s.activeJob n with | some id => s.endJob id cause | none => s
  match s.heldJob n with | some id => s.endJob id cause | none => s

/-- The line is taken into BLOCKED or FAULT, and what the state left behind is ended with the cause (R65, R68). -/
def State.takeOut (s : State) (n : LineNo) (state : LineState) (cause : EndCause) : State :=
  let left := s.line n
  let s := s.setLine n (left.enter state)
  let s := s.endLineJobs n cause
  s.endRevert n .ended cause left.revertLeft

end Sys2Proof.Machine
end

