-- ==== Sys2Proof/Machine/ProfileStore.lean ====
section
/-! DEFINITION. The Profile Store: validation of cadences (R5) and profiles (R11 to R15), staging and commit (R16, R17),
and the owner's part of PROFILE_LOAD, PROFILE_READ, PROFILE_CLEAR, CADENCE_LOAD and CADENCE_READ. -/

namespace Sys2Proof.Machine

/-- What an owner answers a request with: the status and the further bytes of the reply (R169). -/
structure Answer where
  status : Status
  body : List Byte := []
  deriving DecidableEq, Repr

/-- A request refused with a status: nothing changes, and no further bytes are sent (R169, R178). -/
def refuse (s : State) (status : Status) : State × Answer := (s, { status := status })

/-- A request answered OK with further bytes. -/
def accept (s : State) (body : List Byte := []) : State × Answer := (s, { status := .ok, body := body })

/-! ## Cadences (R5) -/

/-- The checks of R5, in the order of R178. -/
inductive CadenceCheck where
  | burstCount
  | burstLength
  | burstEnd
  | burstOrder
  | onTotal
  | noGap
  deriving DecidableEq, Repr

/-- An entry of a cadence error list: the check and its item (R5, R178). -/
structure CadenceError where
  check : CadenceCheck
  item : Nat
  deriving DecidableEq, Repr

/-- The positions of a list at which a test holds. -/
def positionsWhere {α : Type} (test : α → Bool) (xs : List α) : List Nat :=
  (xs.zipIdx.filter fun x => test x.1).map Prod.snd

/-- The positions of the bursts that start below the previous burst's start + length + 1 (R5 Order). -/
def orderFaults (bursts : List Burst) : List Nat :=
  (positionsWhere (fun p : Burst × Burst => decide (p.2.start < p.1.start + p.1.length + 1))
    (bursts.zip (bursts.drop 1))).map (· + 1)

/-- Among steps 0 to 23, taken cyclically, four consecutive steps belong to no burst (R5 Gap). -/
def hasGap (bursts : List Burst) : Bool :=
  (List.finRange 24).any fun s : Pos =>
    !onStep bursts s && !onStep bursts (s + 1) && !onStep bursts (s + 2) && !onStep bursts (s + 3)

/-- The error list of a burst list (R5). -/
def cadenceErrors (bursts : List Burst) : List CadenceError :=
  if bursts.length = 0 ∨ 4 < bursts.length then [⟨.burstCount, 0⟩]
  else
    let total := (bursts.map Burst.length).sum
    (positionsWhere (fun b : Burst => b.length == 0) bursts).map (CadenceError.mk .burstLength) ++
    (positionsWhere (fun b : Burst => decide (24 < b.start + b.length)) bursts).map (CadenceError.mk .burstEnd) ++
    (orderFaults bursts).map (CadenceError.mk .burstOrder) ++
    (if total = 0 ∨ 12 < total then [⟨.onTotal, 0⟩] else []) ++
    (if hasGap bursts then [] else [⟨.noGap, 0⟩])

/-! ## Profiles (R10 to R15) -/

/-- The checks of R12 to R15, in the order of R178. -/
inductive ProfileCheck where
  | partyCount
  | dupDigit
  | badChannel
  | badPattern
  | badSide
  | loadRange
  | codeLoad
  | codeClash
  | idRange
  | idOverlap
  | resistRange
  | marginRange
  | leakRange
  | timerRange
  deriving DecidableEq, Repr

/-- An entry of a profile error list: the check and its item, a set of party positions or a timer field (R11, R178). -/
structure ProfileError where
  check : ProfileCheck
  item : Nat
  deriving DecidableEq, Repr

/-- A set of party positions as R178 sends it: bit p for position p. -/
def positionSet (positions : List Nat) : Nat := (positions.map fun p => 2 ^ p).sum

/-- The entry of a party check: none where no party is concerned (R11). -/
def partyError (check : ProfileCheck) (positions : List Nat) : List ProfileError :=
  if positions = [] then [] else [⟨check, positionSet positions⟩]

/-- The positions of the parties for which another party of the list stands in a relation to them. -/
def positionsPaired (related : RawParty → RawParty → Bool) (parties : List RawParty) : List Nat :=
  (parties.zipIdx.filter fun x => parties.zipIdx.any fun y => x.2 != y.2 && related x.1 y.1).map Prod.snd

def RawParty.badChannel (q : RawParty) : Bool := q.channel.toNat == 0 || decide (4 < q.channel.toNat)

def RawParty.badPattern (q : RawParty) : Bool := decide (7 < q.pattern.toNat)

def RawParty.badSide (q : RawParty) : Bool := decide (1 < q.side.toNat)

def RawParty.badLoad (q : RawParty) : Bool := q.load.toNat == 0 || decide (6 < q.load.toNat)

/-- Same channel and side (R13). -/
def RawParty.sharesSide (q r : RawParty) : Bool := q.channel == r.channel && q.side == r.side

/-- The party takes part in CODE_LOAD (R12). -/
def RawParty.inCodeLoad (q : RawParty) : Bool := !q.badChannel && !q.badSide && !q.badLoad

/-- The party takes part in CODE_CLASH (R12). -/
def RawParty.inCodeClash (q : RawParty) : Bool := !q.badChannel && !q.badSide && !q.badPattern

/-- The most load a channel and side of a line may have (R13). -/
def codeLoadLimit : Nat := 24

/-- The loads of the parties on this party's channel and side add up to more than 24 RLU (R13). -/
def overLoad (parties : List RawParty) (q : RawParty) : Bool :=
  q.inCodeLoad &&
    decide (codeLoadLimit <
      ((parties.filter fun r => r.inCodeLoad && r.sharesSide q).map fun r => r.load.toNat).sum)

/-- Identical ring codes, of parties that take part (R13). -/
def codesClash (q r : RawParty) : Bool :=
  q.inCodeClash && r.inCodeClash && q.sharesSide r && q.pattern == r.pattern

/-- The ID side is not one of the three, or it and the ID nominal do not go together, or the nominal is out of range
(R14). -/
def RawParty.badId (q : RawParty) : Bool :=
  match q.idSide.toNat with
  | 0 | 1 => decide (q.idNominal.toNat < 8) || decide (160 < q.idNominal.toNat)
  | 2 => q.idNominal.toNat != 0
  | _ => true

/-- Identification windows that share a value, or two parties of ID side NONE (R14). -/
def idOverlaps (q r : RawParty) : Bool :=
  !q.badId && !r.badId && q.idSide == r.idSide &&
    (q.idSide.toNat == 2 ||
      let a := q.idNominal.toNat
      let c := r.idNominal.toNat
      decide (a ≤ c + tolerance c + tolerance a) && decide (c ≤ a + tolerance a + tolerance c))

/-- The party checks of R12 to R14, in the order of R11. -/
def partyErrors (parties : List RawParty) : List ProfileError :=
  if parties.length = 0 ∨ 10 < parties.length then [⟨.partyCount, 0⟩]
  else
    partyError .dupDigit (positionsPaired (fun q r => q.digit == r.digit) parties) ++
    partyError .badChannel (positionsWhere RawParty.badChannel parties) ++
    partyError .badPattern (positionsWhere RawParty.badPattern parties) ++
    partyError .badSide (positionsWhere RawParty.badSide parties) ++
    partyError .loadRange (positionsWhere RawParty.badLoad parties) ++
    partyError .codeLoad (positionsWhere (overLoad parties) parties) ++
    partyError .codeClash (positionsPaired codesClash parties) ++
    partyError .idRange (positionsWhere RawParty.badId parties) ++
    partyError .idOverlap (positionsPaired idOverlaps parties)

/-- A number is outside a range. -/
def outside (n low high : Nat) : Bool := decide (n < low) || decide (high < n)

/-- The entries a check raises where a test holds. -/
def raisedWhen (test : Bool) (check : ProfileCheck) (item : Nat) : List ProfileError :=
  if test then [⟨check, item⟩] else []

/-- The checks of the line settings (R15). -/
def settingErrors (p : RawProfile) : List ProfileError :=
  raisedWhen (decide (6000 < p.resistance.toNat)) .resistRange 0 ++
  raisedWhen (outside p.hookMargin.toNat 8 80) .marginRange 0 ++
  raisedWhen (outside p.leakLimit.toNat 8 160) .leakRange 0 ++
  raisedWhen (outside p.clearTime.toNat 20 200) .timerRange 0 ++
  raisedWhen (outside p.ringTimeout.toNat 1 40) .timerRange 1 ++
  raisedWhen (outside p.revertWait.toNat 8 120) .timerRange 2 ++
  raisedWhen (outside p.parkTime.toNat 40 480) .timerRange 3

/-- The error list of an offered profile (R11). -/
def profileErrors (p : RawProfile) : List ProfileError := partyErrors p.parties ++ settingErrors p

/-- The bytes of an error list: the count, then three bytes an entry (R178). -/
def errorBytes (entries : List (Nat × Nat)) : List Byte :=
  toByte entries.length :: entries.flatMap fun e => toByte e.1 :: le16 e.2

/-- A party entry that passed the checks, as the Profile Store keeps it (R10). -/
def RawParty.keep (q : RawParty) : Party where
  digit := Fin.ofNat 10 q.digit.toNat
  code :=
    { chan := Fin.ofNat 4 (q.channel.toNat - 1)
      side := if q.side.toNat = 0 then .tip else .ring
      pattern := Fin.ofNat 8 q.pattern.toNat }
  load := q.load.toNat
  idSide := match q.idSide.toNat with | 0 => .tip | 1 => .ring | _ => .none
  idNominal := if q.idNominal.toNat = 0 then none else some q.idNominal.toNat
  revertPermitted := q.revertPermitted.toNat != 0

/-- A profile that passed the checks, as the Profile Store keeps it (R9). -/
def RawProfile.keep (p : RawProfile) : Profile where
  resistance := p.resistance.toNat
  hookMargin := p.hookMargin.toNat
  leakLimit := p.leakLimit.toNat
  clearTime := p.clearTime.toNat
  ringTimeout := p.ringTimeout.toNat
  revertWait := p.revertWait.toNat
  parkTime := p.parkTime.toNat
  parties := p.parties.map RawParty.keep

/-! ## The requests -/

/-- A valid profile is staged by the state of the line (R16). The flags byte of the reply has REPLACED in bit 0 (R178); that
bits 1 to 7 are sent as 0 is the model's choice (log 29). -/
def State.stage (s : State) (n : LineNo) (p : Profile) : State × Answer :=
  let l := s.line n
  match l.state with
  | .unconfigured => accept ((s.setLine n { l with active := some p }).enterIdle n) [flagByte false]
  | .idle => accept ((s.setLine n { l with active := some p }).updateLeaky n) [flagByte false]
  | .blocked =>
    accept ((s.setLine n { l with active := some p, staged := none }).updateLeaky n) [flagByte l.staged.isSome]
  | .seizeId | .seized | .ringing | .answerId | .talk | .revertWait | .revertTalk | .linger | .lockout | .fault =>
    (s.setLine n { l with staged := some p }, { status := .pending, body := [flagByte l.staged.isSome] })

/-- PROFILE_LOAD at the Profile Store (R11, R16). -/
def takeProfileLoad (s : State) (n : LineNo) (p : RawProfile) : State × Answer :=
  let errors := profileErrors p
  if errors = [] then s.stage n p.keep
  else (s, { status := .profileInvalid, body := errorBytes (errors.map fun e => (e.check.ctorIdx, e.item)) })

/-- PROFILE_READ (R19). -/
def takeProfileRead (s : State) (n : LineNo) (staged : Bool) : State × Answer :=
  match if staged then (s.line n).staged else (s.line n).active with
  | some p => accept s p.bytes
  | none => refuse s .noProfile

/-- The line's profiles are discarded, and it enters UNCONFIGURED (R20). -/
def State.clearProfile (s : State) (n : LineNo) : State :=
  let l := s.line n
  (s.setLine n { l.enter .unconfigured with active := none, staged := none, seizeResult := none }).updateLeaky n

/-- PROFILE_CLEAR (R20). -/
def takeProfileClear (s : State) (n : LineNo) : State × Answer :=
  match (s.line n).state with
  | .idle | .blocked => accept (s.clearProfile n)
  | .unconfigured => accept s
  | .seizeId | .seized | .ringing | .answerId | .talk | .revertWait | .revertTalk | .linger | .lockout | .fault =>
    refuse s .wrongState

/-- Some job in use names the pattern (R6). -/
def State.patternInUse (s : State) (p : PatternNo) : Bool :=
  allJobs.any fun id =>
    match s.job id with
    | some j => j.codes.any fun q => q.pattern == p
    | none => false

/-- CADENCE_LOAD (R6). -/
def takeCadenceLoad (s : State) (p : PatternNo) (bursts : List Burst) : State × Answer :=
  if s.patternInUse p then refuse s .inUse
  else
    let errors := cadenceErrors bursts
    if errors = [] then accept { s with cadence := replaceAt s.cadence p bursts }
    else (s, { status := .cadenceInvalid, body := errorBytes (errors.map fun e => (e.check.ctorIdx, e.item)) })

/-- CADENCE_READ (R7). -/
def takeCadenceRead (s : State) (p : PatternNo) : State × Answer :=
  let bursts := s.cadence.get p
  accept s (toByte bursts.length :: bursts.flatMap fun b => [toByte b.start, toByte b.length])

end Sys2Proof.Machine
end

