-- ==== Sys2Proof/Machine/Reverting.lean ====
section
/-! DEFINITION. The Revert Sequencer: REVERT and its checks (R127 to R129), the caller's hang-up (R131), the end of the
answer window of a REVERT job (R134 to R137), and the wait and talk steps (R130, R138). -/

namespace Sys2Proof.Machine

/-- The code list of a call: the called party's code, then with ring-back the caller's (R128). -/
def revertCodes (p : Profile) (caller called : Digit) (ringBack : Bool) : List RingCode :=
  let codeOf (d : Digit) : List RingCode := ((p.party d).map Party.code).toList
  codeOf called ++ (if ringBack then codeOf caller else [])

/-- The code list of the line's call (R128), from its active profile. -/
def Line.revertCodes (l : Line) (c : RevertContext) : List RingCode :=
  match l.active with
  | some p => Sys2Proof.Machine.revertCodes p c.caller c.called c.ringBack
  | none => []

/-- Some code's load is over the nominal budget of its channel (R77, R79, R127). -/
def State.overNominal (s : State) (l : Line) (code : RingCode) : Bool :=
  decide ((s.channel code.chan).nominal < l.codeLoad code)

/-- The status REVERT meets before it is taken, by the line state (R70). -/
def revertRefusal : LineState → Option Status
  | .unconfigured => some .noProfile
  | .blocked => some .lineBlocked
  | .lockout | .fault => some .lineFault
  | .seized => none
  | .idle | .seizeId | .ringing | .answerId | .talk | .revertWait | .revertTalk | .linger => some .wrongState

/-- The caller a seize result names (R127 check 2). -/
def Line.caller (l : Line) : Option Digit :=
  match l.seizeResult with
  | some r => if r.outcome = .party then r.digit else none
  | none => none

/-- A REVERT that passed its checks (R129): context, state and reply. -/
def State.startRevert (s : State) (n : LineNo) (wait : Nat) (caller called : Digit) (ringBack : Bool) : State × Answer :=
  let context : RevertContext :=
    { caller := caller, called := called, ringBack := ringBack, retries := 0, waitSteps := wait, talkSteps := 0,
      job := none }
  accept (s.setLine n { (s.line n).enter .revertWait with revert := some context }) [flagByte ringBack]

/-- Checks 3 to 7 of R127, for a known caller. -/
def State.checkRevert (s : State) (n : LineNo) (p : Profile) (caller called : Digit) : State × Answer :=
  match p.party called with
  | none => refuse s .noParty
  | some callee =>
    if called = caller then refuse s .sameParty
    else
      match p.party caller with
      | none => refuse s .notPermitted
      | some calling =>
        if !(calling.revertPermitted && callee.revertPermitted) then refuse s .notPermitted
        else
          let ringBack := !calling.code.sounds callee.code
          let codes := revertCodes p caller called ringBack
          if s.channelOut codes then refuse s .noGenerator
          else if codes.any (s.overNominal (s.line n)) then refuse s .loadExceeds
          else s.startRevert n p.revertWait caller called ringBack

/-- REVERT (R70, R127, R129). -/
def takeRevert (s : State) (n : LineNo) (called : Digit) : State × Answer :=
  let l := s.line n
  match revertRefusal l.state with
  | some status => refuse s status
  | none =>
    if l.leaky then refuse s .lineFault
    else
      match l.caller, l.active with
      | some caller, some p => s.checkRevert n p caller called
      | _, _ => refuse s .callerUnknown

/-- The caller's hang-up in REVERT_WAIT (R131). With no free record, which R73 excludes, the call ends NO_CAPACITY
(log 18). -/
def State.hangUp (s : State) (n : LineNo) : State :=
  let l := s.line n
  match l.revert, l.active with
  | some c, some p =>
    let codes := l.revertCodes c
    if s.channelOut codes then (s.endRevert n .ended .genFailed id).enterIdle n
    else
      match s.createJob n .revert (some c.called) codes p.ringTimeout with
      | none => (s.endRevert n .ended .noCapacity id).enterIdle n
      | some (id, s) =>
        let c := { c with job := some id }
        (s.setLine n { (s.line n).toRinging with revert := some c }).post
          (c.report n .ringing fun r => { r with job := some id })
  | _, _ => s.enterIdle n

/-- The most caller returns of a call (R126, R136). -/
def retryLimit : Nat := 3

/-- The line enters a state at the end of an ID window: the filter restarts off-hook (R35, R50). -/
def Line.afterWindow (l : Line) (state : LineState) : Line := { l.enter state with hook := .offHookRestart }

/-- The end of the answer window of a REVERT job (R134): caller return, exhausted retries or call answered. -/
def State.settleRevert (s : State) (n : LineNo) (a : AnsweredJob) (c : RevertContext) (result : IdResult) : State :=
  let l := s.line n
  if result.names c.caller then
    if c.retries < retryLimit then
      let wait := match l.active with | some p => p.revertWait | none => c.waitSteps
      let c := { c with retries := c.retries + 1, waitSteps := wait }
      (s.setLine n { l.afterWindow .revertWait with revert := some c }).post
        (c.report n .callerReturned fun r => { r with job := some a.job, result := some result })
    else
      (s.setLine n (l.afterWindow .seized)).endRevert n .ended .retriesExhausted
        fun r => { r with job := some a.job, result := some result }
  else
    let c := { c with talkSteps := 0 }
    (s.setLine n { l.afterWindow .revertTalk with revert := some c }).post
      (c.report n .answered fun r =>
        { r with job := some a.job, result := some result, matched := some (result.names c.called) })

/-- The most talk steps a context counts (R126). -/
def talkLimit : Nat := 65535

/-- The boundary work of the Revert Sequencer on one line (R130, R138). -/
def State.revertBoundary (s : State) (n : LineNo) : State :=
  let l := s.line n
  match l.revert, l.state with
  | some c, .revertWait =>
    let c := { c with waitSteps := c.waitSteps - 1 }
    if c.waitSteps = 0 then
      (s.setLine n { l.enter .seized with revert := some c }).endRevert n .abandoned .callerStayed id
    else s.setLine n { l with revert := some c }
  | some c, .revertTalk => s.setLine n { l with revert := some { c with talkSteps := min talkLimit (c.talkSteps + 1) } }
  | _, _ => s

end Sys2Proof.Machine
end

