-- ==== Sys2Proof/Machine/Ringing.lean ====
section
/-! DEFINITION. The Ring Scheduler's requests: RING (R77, R78), GENERAL_RING (R79, R80), CANCEL (R83), JOB_READ (R90)
and PHASE_READ (R111). -/

namespace Sys2Proof.Machine

/-- The status RING or GENERAL_RING meets by the line state and the LEAKY flag (R70); `taken` says in which of the other
states the request is taken. -/
def ringRefusal (l : Line) (taken : Bool) : Option Status :=
  match l.state with
  | .unconfigured => some .noProfile
  | .blocked => some .lineBlocked
  | .lockout | .fault => some .lineFault
  | .idle | .seizeId | .seized | .ringing | .answerId | .talk | .revertWait | .revertTalk | .linger =>
    if l.leaky then some .lineFault else if taken then none else some .lineBusy

/-- The starting cycles of a request: its count, or the ring timeout for 0 (R78, R80). -/
def startingCycles (p : Profile) (cycles : Nat) : Nat := if cycles = 0 then p.ringTimeout else cycles

/-- A RING that passed its checks (R78). Without a free record, which R73 excludes, it is answered BUSY (log 18). -/
def State.startRing (s : State) (n : LineNo) (d : Digit) (code : RingCode) (cycles : Nat) : State × Answer :=
  match s.createJob n .call (some d) [code] cycles with
  | none => refuse s .busy
  | some (id, s) => accept (s.setLine n (s.line n).toRinging) [toByte id.val]

/-- RING (R77, R78). -/
def takeRing (s : State) (n : LineNo) (d : Digit) (cycles : Nat) : State × Answer :=
  let l := s.line n
  match ringRefusal l (l.state == .idle), l.active with
  | some status, _ => refuse s status
  | none, none => refuse s .noProfile
  | none, some p =>
    match p.party d with
    | none => refuse s .noParty
    | some q =>
      if s.channelOut [q.code] then refuse s .noGenerator
      else if s.overNominal l q.code then refuse s .loadExceeds
      else s.startRing n d q.code (startingCycles p cycles)

/-- The pattern of every general-ring code (R4). -/
def generalPattern : PatternNo := 6

/-- One code for each distinct channel and side, in the order of the first party that has it, pattern 6 (R79). -/
def generalCodes : List Party → List RingCode
  | [] => []
  | q :: rest =>
    { q.code with pattern := generalPattern } ::
      (generalCodes rest).filter fun c => !(c.chan == q.code.chan && c.side == q.code.side)

/-- The line has a GENERAL job (R79 check 2). -/
def State.hasGeneral (s : State) (n : LineNo) : Bool :=
  match s.activeJob n with
  | some id => match s.job id with | some j => j.kind == .general | none => false
  | none => false

/-- Preemption: the line's WAITING or PLACED job becomes HELD (R80). -/
def State.holdJob (s : State) (id : JobId) : State :=
  match s.job id with
  | some j =>
    match j.phase with
    | .placed _ _ => s.unplace id .held
    | .waiting => (s.setJob id (some { j with phase := .held, rang := false })).leaveQueue id
    | .held => s
  | none => s

/-- A GENERAL_RING that passed its checks (R80): preemption, creation, reply. -/
def State.startGeneral (s : State) (n : LineNo) (codes : List RingCode) (cycles : Nat) : State × Answer :=
  let held := s.activeJob n
  let preempted := match held with | some id => s.holdJob id | none => s
  match preempted.createJob n .general none codes cycles with
  | none => refuse s .busy
  | some (id, t) =>
    let t := if (t.line n).state = .ringing then t else t.setLine n (t.line n).toRinging
    accept t [toByte id.val, toByte codes.length, orAbsent (held.map Fin.val)]

/-- GENERAL_RING (R79, R80). -/
def takeGeneralRing (s : State) (n : LineNo) (cycles : Nat) : State × Answer :=
  let l := s.line n
  match ringRefusal l (l.state == .idle || l.state == .ringing), l.active with
  | some status, _ => refuse s status
  | none, none => refuse s .noProfile
  | none, some p =>
    let codes := generalCodes p.parties
    if s.hasGeneral n then refuse s .lineBusy
    else if s.channelOut codes then refuse s .noGenerator
    else
      match codes.filter fun q => !s.overNominal l q with
      | [] => refuse s .loadExceeds
      | kept => s.startGeneral n kept (startingCycles p cycles)

/-- A reverting call abandoned by CANCEL in REVERT_WAIT (R132). -/
def State.abandonRevert (s : State) (n : LineNo) : State :=
  (s.setLine n ((s.line n).enter .seized)).endRevert n .abandoned .cancelled id

/-- CANCEL (R70, R83, R132). -/
def takeCancel (s : State) (n : LineNo) : State × Answer :=
  match (s.line n).state with
  | .unconfigured => refuse s .noProfile
  | .blocked => refuse s .lineBlocked
  | .lockout | .fault => refuse s .lineFault
  | .ringing =>
    match s.activeJob n with
    | some id => accept (s.endJob id .cancelled) [toByte id.val]
    | none => refuse s .noJob
  | .revertWait => accept (s.abandonRevert n) [absentByte]
  | .answerId | .talk | .revertTalk => refuse s .tooLate
  | .idle | .seizeId | .seized | .linger => refuse s .noJob

/-- JOB_READ (R90). -/
def takeJobRead (s : State) (id : JobId) : State × Answer :=
  match s.job id with
  | some j => accept s (j.bytes id)
  | none => refuse s .noJob

/-- PHASE_READ (R111). -/
def takePhaseRead (s : State) (c : Chan) : State × Answer :=
  accept s
    ((List.finRange 24).map (fun k => toByte (s.cell c k)) ++
      [toByte (s.channel c).effective, toByte (s.channel c).state.ctorIdx, toByte s.sched.position.val])

end Sys2Proof.Machine
end

