-- ==== Sys2Proof/Machine/LineRequests.lean ====
section
/-! DEFINITION. The requests on a line's state: RELEASE (R60), BLOCK (R65), UNBLOCK (R66) and LINE_STATUS (R177). -/

namespace Sys2Proof.Machine

/-- The state RELEASE leads to, by the confirmed hook state (R60). -/
def Line.releaseState (l : Line) : LineState := if l.hook.offHook then .linger else .idle

/-- A RELEASE that is taken (R60, R138): a reverting call ends first, then the line enters LINGER or IDLE. -/
def State.release (s : State) (n : LineNo) : State :=
  let l := s.line n
  let s :=
    if l.state = .revertTalk then
      s.endRevert n .ended .released fun r => { r with duration := l.revert.map RevertContext.duration }
    else s
  if l.hook.offHook then
    let park := match l.active with | some p => p.parkTime | none => 0
    s.setLine n { (s.line n).enter .linger with park := some park }
  else s.enterIdle n

/-- RELEASE (R60, R70). -/
def takeRelease (s : State) (n : LineNo) : State × Answer :=
  let l := s.line n
  match l.state with
  | .seized | .talk | .revertTalk => accept (s.release n) [toByte l.releaseState.ctorIdx]
  | .unconfigured => refuse s .noProfile
  | .blocked => refuse s .lineBlocked
  | .lockout | .fault => refuse s .lineFault
  | .idle | .seizeId | .ringing | .answerId | .revertWait | .linger => refuse s .wrongState

/-- BLOCK (R65, R70). -/
def takeBlock (s : State) (n : LineNo) : State × Answer :=
  match (s.line n).state with
  | .unconfigured => refuse s .noProfile
  | .blocked => accept s
  | .idle | .seizeId | .seized | .ringing | .answerId | .talk | .revertWait | .revertTalk | .linger | .lockout
  | .fault => accept (s.takeOut n .blocked .blocked)

/-- UNBLOCK (R66, R70). -/
def takeUnblock (s : State) (n : LineNo) : State × Answer :=
  match (s.line n).state with
  | .blocked => accept (s.enterIdle n)
  | .unconfigured => refuse s .noProfile
  | .lockout | .fault => refuse s .lineFault
  | .idle | .seizeId | .seized | .ringing | .answerId | .talk | .revertWait | .revertTalk | .linger =>
    refuse s .wrongState

/-- The payload of the LINE_STATUS reply after its status (R177, R178). That bits 2 to 7 of the flags byte are sent as 0 is
the model's choice (log 29). -/
def State.lineStatusBytes (s : State) (n : LineNo) : List Byte :=
  let l := s.line n
  [toByte l.state.ctorIdx, flagByte l.leaky ||| (flagByte l.staged.isSome <<< 1), toByte l.leakage,
    toByte l.hookThreshold, toByte l.tripThreshold, toByte l.tripMargin, toByte l.lastGood.loop,
    toByte l.lastGood.tip, toByte l.lastGood.ring] ++
  resultBytes l.seizeResult s.freeCount ++
  [orAbsent ((s.activeJob n).map Fin.val), orAbsent ((s.heldJob n).map Fin.val)] ++
  contextBytes l.revert

/-- LINE_STATUS (R177). Only the model's counter of free values moves (log 12). -/
def takeLineStatus (s : State) (n : LineNo) : State × Answer :=
  accept { s with freeCount := s.freeCount + resultFree (s.line n).seizeResult } (s.lineStatusBytes n)

end Sys2Proof.Machine
end

