-- ==== Sys2Proof/Machine/Holding.lean ====
section
/-! DEFINITION. Hold Control: HOLD (R158), RESUME (R161), the reads of STORM (R160) and the change from RESUMING to
RUNNING at a step boundary (R162). -/

namespace Sys2Proof.Machine

/-- Every applied code is removed at once (R108). -/
def State.cutAll (s : State) : State := s.removeCodes fun _ => true

/-- The hold record of a HOLD or storm assertion that leads to HELD. -/
def Hold.toHeld (h : Hold) (mode : HoldMode) (cause : HoldCause) (storm : Bool) : Hold :=
  { h with state := .held, mode := some mode, cause := some cause, storm := storm }

/-- HOLD on the hold record and the ring plan (R158); HOLD_EVENT before the removals (R163). -/
def State.holdRinging (s : State) (mode : HoldMode) : State :=
  match s.hold.state, mode with
  | .running, .now | .holdPending, .now => (s.changeHold (s.hold.toHeld .now .request s.hold.storm)).cutAll
  | .running, .endOfBurst =>
    (s.changeHold { s.hold with state := .holdPending, mode := some .endOfBurst, cause := some .request }).reportNoBurst
  | .holdPending, .endOfBurst | .held, .now | .held, .endOfBurst => s
  | .resuming, mode => s.changeHold (s.hold.toHeld mode .request s.hold.storm)

/-- HOLD (R158): never refused, the reply carries the hold state as it leaves it. -/
def takeHold (s : State) (mode : HoldMode) : State × Answer :=
  let t := s.holdRinging mode
  accept t [toByte t.hold.state.ctorIdx]

/-- The hold record of RESUME (R161). -/
def Hold.toResuming (h : Hold) : Hold := { h with state := .resuming, mode := none, cause := some .request }

/-- RESUME (R161). -/
def takeResume (s : State) : State × Answer :=
  if s.hold.storm then refuse s .stormActive
  else
    match s.hold.state with
    | .held => accept (s.changeHold s.hold.toResuming) [toByte HoldState.resuming.ctorIdx]
    | .holdPending => accept (s.changeHold s.hold.toResuming).cutAll [toByte HoldState.resuming.ctorIdx]
    | .resuming => accept s [toByte HoldState.resuming.ctorIdx]
    | .running => refuse s .wrongState

/-- A round's read finds STORM asserted (R160): with the flag clear it acts as HOLD NOW from every hold state. -/
def State.stormAsserted (s : State) : State :=
  if s.hold.storm then s else (s.changeHold (s.hold.toHeld .now .storm true)).cutAll

/-- A round's read finds STORM deasserted (R160). -/
def State.stormDeasserted (s : State) : State :=
  if s.hold.storm then s.changeHold { s.hold with storm := false } else s

/-- Hold Control's work at a step boundary (R162). -/
def State.holdBoundary (s : State) : State :=
  if s.hold.state = .resuming then
    s.changeHold { s.hold with state := .running, mode := none, cause := some .request }
  else s

end Sys2Proof.Machine
end

