-- ==== Sys2Proof/Machine/Generators.lean ====
section
/-! DEFINITION. The Generator Controller: GENERATOR_SET (R145), GENERATOR_RESET (R146), starts (R147), GRDY and GOVL
(R144, R148, R152), overload and derating (R149, R150), failure (R151), and the boundary work on the start timer
(R148), recovery (R153) and idle stop (R154). -/

namespace Sys2Proof.Machine

/-- A change of a channel's state or derate level, with its GENERATOR_EVENT (R155). -/
def State.changeChannel (s : State) (c : Chan) (ch : Channel) (cause : GeneratorCause) : State :=
  (s.setChannel c ch).post (.generatorEvent c ch.state ch.derate cause)

/-- The codes applied on a channel are removed at once (R108). -/
def State.cutChannel (s : State) (c : Chan) : State :=
  s.removeCodes fun e => match e.applied with | some q => q.chan == c | none => false

/-- The end of a job with cause GEN_FAILED, where it uses the channel (R89). -/
def State.endOnChannel (s : State) (c : Chan) (id : JobId) : State :=
  match s.job id with
  | some j => if j.uses c then s.endJob id .genFailed else s
  | none => s

/-- The report of a channel FAILED or ABSENT (R89, R108): its codes are removed, and the jobs that use it end in
increasing order of job id. -/
def State.channelLost (s : State) (c : Chan) : State :=
  allJobs.foldl (fun s id => s.endOnChannel c id) (s.cutChannel c)

/-- The entry of a channel to FAILED (R151). FAILED keeps its idle count at 0 (R154; log 17). -/
def State.failChannel (s : State) (c : Chan) (cause : GeneratorCause) : State :=
  (s.changeChannel c { s.channel c with state := .failed, startTimer := none, idleCount := 0, entryMark := false }
    cause).channelLost c

/-! ## Overload (R149, R150) -/

/-- The steps at which the channel's committed load exceeds E(c). -/
def State.overflow (s : State) (c : Chan) : List Pos :=
  (List.finRange 24).filter fun k => decide ((s.channel c).effective < s.cell c k)

/-- The demand on the channel of a placed job's entry, at a step. -/
def State.entryDemand (s : State) (e : Placement) (c : Chan) (k : Pos) : Nat :=
  match s.job e.job with
  | some j => s.demand j e.offset c k
  | none => 0

/-- The PLACED job to unplace: the newest with demand at some cell that exceeds E(c) (R150). The placement list stands
in increasing order of placement stamp (R94). -/
def State.overloadVictim (s : State) (c : Chan) : Option JobId :=
  let steps := s.overflow c
  (s.sched.placements.reverse.find? fun e => steps.any fun k => decide (0 < s.entryDemand e c k)).map Placement.job

/-- The unplacements of an overload, newest first, until no cell exceeds E(c) (R150). -/
def relieve (c : Chan) : Nat → State → State
  | 0, s => s
  | fuel + 1, s =>
    match s.overloadVictim c with
    | some id => relieve c fuel (s.unplaceToQueue id)
    | none => s

/-- The Ring Scheduler's part of an overload (R150): cut, then unplacement. Each turn takes one entry off the placement
list, so its length bounds the turns. -/
def State.overloadReport (s : State) (c : Chan) : State :=
  let s := s.cutChannel c
  relieve c s.sched.placements.length s

/-- An overload of a channel (R149). -/
def State.overload (s : State) (c : Chan) : State :=
  let ch := s.channel c
  if ch.derate < 2 then
    (s.changeChannel c { ch with derate := ch.derate + 1, recovery := 0, overloadMark := true } .overload).overloadReport c
  else s.failChannel c .overload

/-! ## Signals (R144, R148, R149, R152) -/

/-- The channel enters RUNNING (R148). -/
def State.channelReady (s : State) (c : Chan) : State :=
  s.changeChannel c { s.channel c with state := .running, startTimer := none } .ready

/-- What GRDY asserted brings about, by the channel state (R144). -/
def State.takeReady (s : State) (c : Chan) : State :=
  if (s.channel c).state = .starting then s.channelReady c else s

/-- What GOVL asserted brings about, by the channel state (R144). -/
def State.takeOverload (s : State) (c : Chan) : State :=
  match (s.channel c).state with
  | .starting | .running => s.overload c
  | .absent | .off | .failed => s

/-- GRDY is asserted: an event only where the level changes (R144; log 14). -/
def State.grdyAsserted (s : State) (c : Chan) : State :=
  if (s.channel c).grdy then s else (s.setChannel c { s.channel c with grdy := true }).takeReady c

/-- GRDY is withdrawn (R144, R152). -/
def State.grdyWithdrawn (s : State) (c : Chan) : State :=
  if (s.channel c).grdy then
    let s := s.setChannel c { s.channel c with grdy := false }
    if (s.channel c).state = .running then s.failChannel c .readyLost else s
  else s

/-- GOVL is asserted: an edge (R144, R149). -/
def State.govlAsserted (s : State) (c : Chan) : State :=
  if (s.channel c).govl then s else (s.setChannel c { s.channel c with govl := true }).takeOverload c

/-- GOVL is withdrawn: the event is ignored, and a later assertion is an edge again (R144). -/
def State.govlWithdrawn (s : State) (c : Chan) : State := s.setChannel c { s.channel c with govl := false }

/-! ## Starts (R144, R147) -/

/-- The Generator Controller's part in a placement that uses the channel (R147). -/
def State.startFor (s : State) (c : Chan) : State :=
  let ch := s.channel c
  match ch.state with
  | .off =>
    s.changeChannel c { ch with state := .starting, startTimer := some 8, idleCount := 0, entryMark := true } .start
  | .starting | .running => s.setChannel c { ch with idleCount := 0 }
  | .absent | .failed => s

/-- A signal found asserted at the entry to STARTING is taken as an event after the boundary's work (R144). -/
def State.takeStartSignal (s : State) (c : Chan) (signal : StartSignal) : State :=
  let ch := s.channel c
  if ch.entryMark then
    match signal with
    | .grdy => if ch.grdy then s.takeReady c else s
    | .govl => if ch.govl then s.takeOverload c else s
  else s

/-- The entry marks are cleared once their signals have been taken. -/
def State.clearEntryMarks (s : State) : State :=
  { s with channels := tabulate fun c => { s.channel c with entryMark := false } }

/-! ## Boundary work (R148, R153, R154) -/

/-- The start timer of a channel that was STARTING when the boundary came (R148). -/
def State.startTimerBoundary (s : State) (c : Chan) : State :=
  let ch := s.channel c
  match ch.state, ch.startTimer with
  | .starting, some timer =>
    if ch.entryMark then s
    else if timer ≤ 1 then s.failChannel c .startTimeout
    else s.setChannel c { ch with startTimer := some (timer - 1) }
  | _, _ => s

/-- The clean cycles after which a derate level is regained (R153). -/
def recoveryLimit : Nat := 10

/-- Recovery of a channel at a cycle boundary (R153). -/
def State.recoveryBoundary (s : State) (c : Chan) : State :=
  let ch := s.channel c
  let clean := { ch with overloadMark := false }
  if ch.state.inService && decide (0 < ch.derate) && !ch.overloadMark then
    if ch.recovery + 1 < recoveryLimit then s.setChannel c { clean with recovery := ch.recovery + 1 }
    else s.changeChannel c { clean with recovery := 0, derate := ch.derate - 1 } .recovery
  else s.setChannel c clean

/-- Some PLACED job uses the channel (R154). -/
def State.placedOn (s : State) (c : Chan) : Bool :=
  s.sched.placements.any fun e => match s.job e.job with | some j => j.uses c | none => false

/-- The idle cycle boundaries after which a channel stops (R154). -/
def idleLimit : Nat := 4

/-- The idle count of a channel at a cycle boundary (R154). -/
def State.idleBoundary (s : State) (c : Chan) : State :=
  let ch := s.channel c
  match ch.state with
  | .starting | .running =>
    if s.placedOn c then s.setChannel c { ch with idleCount := 0 }
    else if ch.idleCount + 1 < idleLimit then s.setChannel c { ch with idleCount := ch.idleCount + 1 }
    else s.changeChannel c { ch with state := .off, startTimer := none, idleCount := 0, entryMark := false } .idleStop
  | .absent | .off | .failed => s

/-! ## Requests (R145, R146) -/

/-- The highest committed load among a channel's cells (R145). -/
def State.highestLoad (s : State) (c : Chan) : Nat :=
  (List.finRange 24).foldl (fun m k => max m (s.cell c k)) 0

/-- A channel put into OFF by a request, at level 0 with its counts at 0 (R145, R146). -/
def Channel.toOff (ch : Channel) (nominal : Nat) : Channel :=
  { ch with state := .off, nominal := nominal, derate := 0, recovery := 0, overloadMark := false, idleCount := 0,
            startTimer := none, entryMark := false }

/-- A channel put into ABSENT by a nominal budget of 0 (R145; the overload mark stands, log 17). -/
def Channel.toAbsent (ch : Channel) : Channel :=
  { ch with state := .absent, nominal := 0, derate := 0, recovery := 0, idleCount := 0, startTimer := none,
            entryMark := false }

/-- The effects of a GENERATOR_SET that is not refused (R145). -/
def State.setNominal (s : State) (c : Chan) (nominal : Nat) : State :=
  let ch := s.channel c
  match ch.state with
  | .absent => if nominal = 0 then s else s.changeChannel c (ch.toOff nominal) .request
  | .off | .starting | .running | .failed =>
    if nominal = 0 then (s.changeChannel c ch.toAbsent .request).channelLost c
    else s.setChannel c { ch with nominal := nominal }

/-- GENERATOR_SET (R145). -/
def takeGeneratorSet (s : State) (c : Chan) (nominal : Nat) : State × Answer :=
  let ch := s.channel c
  if budget ch.state nominal ch.derate < s.highestLoad c then
    (s, { status := .inUse, body := [toByte (s.highestLoad c)] })
  else
    let t := s.setNominal c nominal
    accept t [toByte (t.channel c).state.ctorIdx, toByte (t.channel c).effective]

/-- GENERATOR_RESET (R146). -/
def takeGeneratorReset (s : State) (c : Chan) : State × Answer :=
  let ch := s.channel c
  if ch.state = .failed then accept (s.changeChannel c (ch.toOff ch.nominal) .request) else refuse s .wrongState

end Sys2Proof.Machine
end

