-- ==== Sys2Proof/Machine/Arrival.lean ====
section
/-! DEFINITION. A sample arrival (R29): the Scan Bus record and its marks (R23 to R25), the hook filter and what it
leads to (R34 to R41, R57, R59, R64), trip scoring and the trip (R114 to R118), the ID window (R44 to R49), the
baseline (R30), and the end of the exchange with the handover of the presence set (R21, R26). -/

namespace Sys2Proof.Machine

/-! ## The Scan Bus record (R23 to R25) -/

/-- The line circuit's record after a reply: last good sample, presence flag, miss count and good count. -/
def Line.takeReply (l : Line) (reply : BitVec 26) : Line :=
  if replyGood reply then
    { l with lastGood := replySample reply, present := true, missCount := 0, goodCount := min 50 (l.goodCount + 1) }
  else { l with present := false, missCount := min 3 (l.missCount + 1), goodCount := 0 }

/-- The arrival carries a scan-fault mark: a miss, and the miss count stands at 3 after it (R24). -/
def Line.scanFaultMark (l : Line) (reply : BitVec 26) : Bool :=
  !replyGood reply && (l.takeReply reply).missCount == 3

/-- The arrival carries a recovery mark: the good count reaches 50 by it (R25). -/
def Line.recoveryMark (l : Line) (reply : BitVec 26) : Bool := replyGood reply && l.goodCount == 49

/-! ## Stage 1: marks (R68, R69) -/

/-- A scan fault: LINE_FAULT, then the line enters FAULT and what the state left behind ends (R68). -/
def State.scanFault (s : State) (n : LineNo) : State :=
  (s.post (.lineFault n .scan (s.line n).state)).takeOut n .fault .lineFault

/-- A return to IDLE with LINE_RECOVERED, from FAULT (R69) or LOCKOUT (R64). -/
def State.recoverLine (s : State) (n : LineNo) : State :=
  (s.post (.lineRecovered n (s.line n).state)).enterIdle n

/-! ## Stage 2: the hook filter (R37 to R41) -/

/-- DIGIT for a pulse count that ended a digit (R38). -/
def digitOf (pulses : Nat) : Option Digit × Bool :=
  if pulses ≤ 9 then (some (Fin.ofNat 10 pulses), false)
  else if pulses = 10 then (some 0, false)
  else (none, true)

/-- The longest break that is a dial pulse (R37). -/
def pulseLimit : Nat := 12

/-- The end of a break in SEIZED: a dial pulse, or a hit that abandons a digit in progress (R37, R39). -/
def State.breakEnded (s : State) (n : LineNo) (breakCount : Nat) : State :=
  let l := s.line n
  let pulses := l.hook.pulseCount
  if breakCount ≤ pulseLimit then
    s.setLine n { l with hook := { l.hook with pulseCount := min 15 (pulses + 1) } }
  else if 0 < pulses ∧ breakCount < l.clearTime then
    (s.setLine n { l with hook := { l.hook with pulseCount := 0 } }).post (.digit n none pulses true)
  else s

/-- A make count of 30 in SEIZED ends a digit in progress (R38). -/
def State.makeEnded (s : State) (n : LineNo) : State :=
  let l := s.line n
  let pulses := l.hook.pulseCount
  if 0 < pulses then
    (s.setLine n { l with hook := { l.hook with pulseCount := 0 } }).post
      (.digit n (digitOf pulses).1 pulses (digitOf pulses).2)
  else s

/-- A break that reaches the clear time, by the line state (R40). -/
def State.breakReached (s : State) (n : LineNo) : State :=
  let l := s.line n
  match l.state with
  | .seized | .talk | .linger => (s.post (.clear n l.state)).enterIdle n
  | .revertTalk =>
    (s.endRevert n .ended .cleared fun r =>
      { r with duration := l.revert.map RevertContext.duration }).enterIdle n
  | .revertWait => s.hangUp n
  | .lockout => s.recoverLine n
  | .unconfigured | .idle | .seizeId | .ringing | .answerId | .blocked | .fault => s

/-- A good sample at the hook filter, and what its event leads to in the line's state (R34, R37 to R41, R57). -/
def State.hookArrival (s : State) (n : LineNo) (loop : Nat) : State :=
  let l := s.line n
  let (filter, event) := l.hook.sample (decide (l.hookThreshold ≤ loop)) l.clearTime
  let s := s.setLine n { l with hook := filter }
  match event with
  | .quiet | .breakBegan => s
  | .makeBegan breakCount =>
    match l.state with
    | .idle => s.setLine n ((s.line n).toWindow .seizeId .seize)
    | .seized => s.breakEnded n breakCount
    | .unconfigured | .seizeId | .ringing | .answerId | .talk | .revertWait | .revertTalk | .linger | .lockout
    | .blocked | .fault => s
  | .makeReached => if l.state = .seized then s.makeEnded n else s
  | .breakReached => s.breakReached n

/-! ## Stage 2: trip scoring (R114 to R118) -/

/-- The trip score at which the line trips (R116). -/
def tripLimit : Nat := 4

/-- The Ring Scheduler's part in a trip (R118): the answered-job record is handed over, and the line's job ends
ANSWERED. -/
def State.answerJob (s : State) (n : LineNo) : State :=
  match s.activeJob n with
  | none => s
  | some id =>
    match s.job id with
    | none => s
    | some j =>
      (s.setLine n { s.line n with answered := some { job := id, kind := j.kind, target := j.target } }).endJob id
        .answered

/-- A trip (R117): the line leaves RINGING for ANSWER_ID with a window of kind ANSWER, then the job ends. -/
def State.trip (s : State) (n : LineNo) : State :=
  (s.setLine n ((s.line n).toWindow .answerId .answer)).answerJob n

/-- A sample arrival of a line in RINGING (R107, R114, R116). -/
def State.ringArrival (s : State) (n : LineNo) (good : Bool) (loop : Nat) : State :=
  let l := s.line n
  if 0 < l.blanking then s.setLine n { l with blanking := l.blanking - 1 }
  else if !good then s
  else if l.scoreThreshold ≤ loop then
    if l.tripScore + 1 < tripLimit then s.setLine n { l with tripScore := l.tripScore + 1 }
    else (s.setLine n { l with tripScore := 0 }).trip n
  else s.setLine n { l with tripScore := l.tripScore - 1 }

/-! ## Stage 2: the ID window (R45, R46, R49) -/

/-- The arrivals a window settles for and the arrivals it takes (R45). -/
def settlingArrivals : Nat := 4

def windowArrivals : Nat := 20

/-- The window after an arrival that does not end it (R43, R45). -/
def IdWindow.take (w : IdWindow) (sample : Sample) : IdWindow :=
  let w := { w with arrivals := w.arrivals + 1 }
  if w.arrivals ≤ settlingArrivals then w
  else { w with phase := .accumulating, tipSum := w.tipSum + sample.tip, ringSum := w.ringSum + sample.ring }

/-- The ID result of a window's sums, against the active profile (R46 to R48). -/
def Line.windowResult (l : Line) (w : IdWindow) : IdResult :=
  classify (match l.active with | some p => p.parties | none => []) (w.tipSum / 16) (w.ringSum / 16)

/-- The end of a SEIZE window (R49, R58). -/
def State.seizeEnds (s : State) (n : LineNo) (result : IdResult) : State :=
  (s.setLine n { (s.line n).afterWindow .seized with seizeResult := some result }).post (.seize n result)

/-- The match flag of an ANSWER (R120). -/
def AnsweredJob.matched (a : AnsweredJob) (result : IdResult) : Bool :=
  match a.target with
  | some d => result.names d
  | none => false

/-- The end of an ANSWER window (R120, R121). A REVERT record without a context, and a window without a record, cannot
come about by R119 and R126 (log 18). -/
def State.answerEnds (s : State) (n : LineNo) (result : IdResult) : State :=
  let l := s.line n
  match l.answered with
  | none => s.setLine n (l.afterWindow .talk)
  | some a =>
    match a.kind, l.revert with
    | .revert, some c => s.settleRevert n a c result
    | .revert, none => s.setLine n (l.afterWindow .talk)
    | .call, _ | .general, _ =>
      (s.setLine n (l.afterWindow .talk)).post (.answer a n result (a.matched result))

/-- A sample arrival of a line in SEIZE_ID or ANSWER_ID (R45, R46). -/
def State.windowArrival (s : State) (n : LineNo) (sample : Sample) : State :=
  let l := s.line n
  let w := l.window.take sample
  if w.arrivals < windowArrivals then s.setLine n { l with window := w }
  else
    match w.kind with
    | some .seize => s.seizeEnds n (l.windowResult w)
    | some .answer => s.answerEnds n (l.windowResult w)
    | none => s.setLine n { l with window := .empty }

/-! ## Stages 2 to 4 (R29, R30, R33) -/

/-- Stage 2: the sample is used by the line state. -/
def State.supervise (s : State) (n : LineNo) (good : Bool) (sample : Sample) : State :=
  match (s.line n).state with
  | .idle | .seized | .talk | .revertWait | .revertTalk | .linger | .lockout =>
    if good then s.hookArrival n sample.loop else s
  | .ringing => s.ringArrival n good sample.loop
  | .seizeId | .answerId => s.windowArrival n sample
  | .unconfigured | .blocked | .fault => s

/-- The sample may update the baseline, judged on the line after stage 2 (R30); `blanked` says that stage 2 found it
blanked. -/
def Line.eligible (l : Line) (good blanked : Bool) : Bool :=
  good &&
    match l.state with
    | .idle => !l.hook.offHook
    | .ringing => l.applied.isNone && !blanked && l.tripScore == 0
    | .unconfigured | .seizeId | .seized | .answerId | .talk | .revertWait | .revertTalk | .linger | .lockout
    | .blocked | .fault => false

/-- An update of the baseline (R30): L loses floor(L/16) and gains S. -/
def baselineNext (baseline loop : Nat) : Nat := baseline - baseline / 16 + loop

/-- Stages 3 and 4: the baseline, then the LEAKY flag. -/
def State.learn (s : State) (n : LineNo) (good blanked : Bool) (loop : Nat) : State :=
  let l := s.line n
  if l.eligible good blanked then
    (s.setLine n { l with baseline := baselineNext l.baseline loop }).updateLeaky n
  else s

/-- The arrival is blanked: the line is in RINGING with a blanking count above 0 (R107, R114). -/
def Line.blanked (l : Line) : Bool := l.state == .ringing && decide (0 < l.blanking)

/-- The four stages of an arrival at the Line Controller of line `n` (R29), on the record the reply has left. `before` is
the line before the reply. -/
def State.lineArrival (s : State) (n : LineNo) (before : Line) (reply : BitVec 26) : State :=
  let l := s.line n
  if before.scanFaultMark reply then
    match l.state with
    | .unconfigured | .fault => s
    | .idle | .seizeId | .seized | .ringing | .answerId | .talk | .revertWait | .revertTalk | .linger | .lockout
    | .blocked => s.scanFault n
  else if before.recoveryMark reply ∧ l.state = .fault then s.recoverLine n
  else
    let blanked := l.blanked
    (s.supervise n (replyGood reply) l.lastGood).learn n (replyGood reply) blanked l.lastGood.loop

/-! ## The end of the exchange (R21, R22, R26, R175) -/

/-- The set of line circuits whose presence flag is set (R26): bit i for line circuit i. -/
def State.presence (s : State) : BitVec 16 :=
  BitVec.ofNat 16 (((List.finRange 16).map fun n => if (s.line n).present then 2 ^ n.val else 0).sum)

/-- What STARTED says of each channel (R175). -/
def State.channelReports (s : State) : List ChannelReport :=
  (List.finRange 4).map fun c =>
    { state := (s.channel c).state, grdy := (s.channel c).grdy, govl := (s.channel c).govl }

/-- The handover of the presence set: the start-up state ends, and STARTED is posted (R26, R175). A soft reset taken
while the exchange with line circuit 15 is in progress has it at the end of that exchange (log 21). -/
def State.handOver (s : State) : State :=
  match s.port.startUp with
  | some cause =>
    { s with port := { s.port with startUp := none } }.post
      (.started cause s.presence s.channelReports s.hold.state s.hold.storm)
  | none => s

/-- The next exchange begins, with the command its Line Controller holds now (R21, R22; log 4). `stormDue`: a round
starts with it, whose read of STORM is still to come (R160; log 5). -/
def State.beginExchange (s : State) (n : LineNo) (stormDue : Bool) : State :=
  { s with scan := { position := n, word := commandWord n (s.line n), stormDue := stormDue } }

/-- The end of an exchange (R21, R26): after line circuit 15 the presence set is handed over, also where the soft reset
that waits for it was taken within this exchange (log 21), and the next round starts with its read of STORM (R160). -/
def State.endExchange (s : State) (n : LineNo) : State :=
  let s := if n = 15 then s.handOver else s
  s.beginExchange (n + 1) (n == 15)

/-- The end of the exchange in progress with a reply, and its sample arrival (R21 to R26, R29). -/
def State.arrival (s : State) (reply : BitVec 26) : State :=
  let n := s.scan.position
  let before := s.line n
  ((s.setLine n (before.takeReply reply)).lineArrival n before reply).endExchange n

end Sys2Proof.Machine
end

