-- ==== Sys2Proof/Machine/Boundary.lean ====
section
/-! DEFINITION. A step boundary (R92): the five stages of the Ring Scheduler (R93), the boundary work of the other
blocks, and the order among them that the command gives. -/

namespace Sys2Proof.Machine

/-- A list in the order that `first` gives, then in its own order: what `first` names of it stands first. -/
def ordered {α : Type} [DecidableEq α] (first all : List α) : List α :=
  let named := first.dedup.filter fun x => decide (x ∈ all)
  named ++ all.filter fun x => !decide (x ∈ named)

/-- The jobs in the order stages 2 and 4 take them (log 7). -/
def jobsIn (order : BoundaryOrder) : List JobId := ordered order.jobs allJobs

/-! ## Stage 2: job cycles (R102, R103) -/

/-- The end of one job cycle and the start of the next (R103): count, flag, code. -/
def Job.nextCycle (j : Job) : Job :=
  let next := if j.codeIndex + 1 < j.codes.length then j.codeIndex + 1 else 0
  if j.rang then { j with rung := j.rung + 1, remaining := j.remaining - 1, rang := false, codeIndex := next }
  else { j with rang := false, codeIndex := next }

/-- Stage 2 for one job: its first cycle begins, or a cycle ends, at a boundary into its offset (R102, R103). -/
def State.cycleWork (s : State) (id : JobId) : State :=
  match s.job id, s.placement id with
  | some j, some e =>
    if j.offset = some s.sched.position then
      if e.begun then
        let s := s.setJob id (some j.nextCycle)
        if j.nextCycle.remaining = 0 then s.endJob id .noAnswer else s
      else s.modifyPlacement id fun e => { e with begun := true }
    else s
  | _, _ => s

/-! ## Stage 3: bursts (R105, R106) -/

/-- The current code of an entry's job, where it is wanted ON on a RUNNING channel at this boundary (R105). -/
def State.wanted (s : State) (e : Placement) (j : Job) : Option RingCode :=
  match j.currentCode with
  | some q =>
    if onStep (s.cadence.get q.pattern) (s.sched.position - e.offset) ∧ (s.channel q.chan).state = .running then some q
    else none
  | none => none

/-- An apply request, taken by the line in RINGING or refused (R28, R105, R107). -/
def State.applyCode (s : State) (id : JobId) (j : Job) (q : RingCode) : State :=
  match (s.line j.line).takeApply q with
  | some l =>
    ((s.setLine j.line l).modifyPlacement id fun e => { e with applied := some q }).setJob id
      (some { j with rang := true })
  | none => s

/-- Stage 3 for one entry, in a hold state (R105, R106). -/
def State.burstWork (hold : HoldState) (s : State) (e : Placement) : State :=
  match s.job e.job with
  | none => s
  | some j =>
    match hold with
    | .running =>
      if e.begun then
        match s.wanted e j with
        | some q => if e.applied = some q then s else s.applyCode e.job j q
        | none => if e.applied.isSome then s.removeCode e.job else s
      else s
    | .holdPending =>
      if e.applied.isSome ∧ s.wanted e j ≠ e.applied then s.removeCode e.job else s
    | .held | .resuming => if e.applied.isSome then s.removeCode e.job else s

/-! ## Stage 4: waiting (R88) -/

/-- The waiting steps at which a job ends NO_CAPACITY (R88). -/
def waitingLimit : Nat := 480

/-- The waiting steps of every WAITING job increase by one (R88). -/
def State.countWaiting (s : State) : State :=
  { s with
    sched :=
      { s.sched with
        jobs := tabulate fun id =>
          (s.job id).map fun j => if j.isWaiting then { j with waitingSteps := j.waitingSteps + 1 } else j } }

/-- The job is WAITING at its waiting limit. -/
def State.atWaitingLimit (s : State) (id : JobId) : Bool :=
  match s.job id with
  | some j => j.isWaiting && decide (waitingLimit ≤ j.waitingSteps)
  | none => false

/-- Stage 4 (R88): counted only while Hold Control is RUNNING. -/
def State.waitingWork (s : State) (order : BoundaryOrder) : State :=
  if s.hold.state = .running then
    let s := s.countWaiting
    ((jobsIn order).filter s.atWaitingLimit).foldl (fun s id => s.endJob id .noCapacity) s
  else s

/-! ## Stage 5: placement (R97 to R100) -/

/-- The job fits at an offset (R97). -/
def State.fits (s : State) (j : Job) (o : Pos) : Bool :=
  !s.channelOut j.codes &&
    (List.finRange 4).all fun c =>
      (List.finRange 24).all fun k => decide (s.cell c k + s.demand j o c k ≤ (s.channel c).effective)

/-- The offsets P + 1 to P + 24, mod 24, in the order they are tried (R97). -/
def State.offsets (s : State) : List Pos := (List.finRange 24).map fun i => s.sched.position + 1 + i

/-- An earlier STARVED job in the queue uses a channel of this job (R100). -/
def State.starvedOut (s : State) (id : JobId) (j : Job) : Bool :=
  (s.sched.queue.takeWhile (· != id)).any fun other =>
    match s.job other with
    | some k => k.starved && j.codes.any fun q => k.uses q.chan
    | none => false

/-- The placement of a job at an offset where it fits (R98). -/
def State.place (s : State) (starts : List Chan) (id : JobId) (j : Job) (o : Pos) : State :=
  let s := s.addDemand j o
  let s := if s.sched.placementCounter = stampLimit then s.renumberPlacements else s
  let s := s.setJob id
    (some { j with phase := .placed o s.sched.placementCounter, skips := 0, starved := false })
  let s := { s with sched := { s.sched with placementCounter := s.sched.placementCounter + 1 } }
  let s := s.setPlacements (s.sched.placements ++ [{ job := id, offset := o, begun := false, applied := none }])
  ((ordered starts (List.finRange 4)).filter j.uses).foldl State.startFor (s.leaveQueue id)

/-- The skips at which a job is STARVED (R99). -/
def starvedLimit : Nat := 48

/-- A job tried at a boundary that fits at no offset (R99). -/
def Job.skip (j : Job) : Job :=
  { j with skips := min starvedLimit (j.skips + 1), starved := j.starved || decide (starvedLimit ≤ j.skips + 1) }

/-- Stage 5 for one job of the queue: blocked, placed at the first offset that fits, or passed over (R97 to R100). -/
def State.tryPlace (starts : List Chan) (s : State) (id : JobId) : State :=
  match s.job id with
  | none => s
  | some j =>
    if s.starvedOut id j then s
    else
      match s.offsets.find? (s.fits j) with
      | some o => s.place starts id j o
      | none => s.setJob id (some j.skip)

/-! ## The Ring Scheduler's work (R93) -/

/-- Stage 1: the position advances (R92). -/
def State.advance (s : State) : State := { s with sched := { s.sched with position := s.sched.position + 1 } }

/-- Stage 2 for every job. -/
def State.cyclesWork (s : State) (order : BoundaryOrder) : State := (jobsIn order).foldl State.cycleWork s

/-- Stage 3 for every entry, by the hold state as it stands at the boundary. -/
def State.burstsWork (s : State) : State := s.sched.placements.foldl (State.burstWork s.hold.state) s

/-- Stage 5 for every job that stands in the queue. -/
def State.placementWork (s : State) (order : BoundaryOrder) : State :=
  s.sched.queue.foldl (State.tryPlace order.starts) s

/-- The five stages, after the hold change where it is still to come (R93, R162). -/
def State.schedulerBoundary (s : State) (order : BoundaryOrder) : State :=
  (((s.holdBoundary.advance.cyclesWork order).burstsWork).waitingWork order).placementWork order

/-! ## The other blocks and the whole boundary (R62, R92) -/

/-- The park timer of a line in LINGER (R62). -/
def State.parkBoundary (s : State) (n : LineNo) : State :=
  let l := s.line n
  match l.state, l.park with
  | .linger, some timer =>
    if timer ≤ 1 then (s.setLine n (l.enter .lockout)).post (.lineFault n .permanentLoop .linger)
    else s.setLine n { l with park := some (timer - 1) }
  | _, _ => s

/-- One piece of the work of a boundary; `cycle` says that it is a cycle boundary (R92). -/
def State.boundaryPiece (order : BoundaryOrder) (cycle : Bool) (s : State) : BoundaryPiece → State
  | .hold => s.holdBoundary
  | .scheduler => s.schedulerBoundary order
  | .park n => s.parkBoundary n
  | .revert n => s.revertBoundary n
  | .startTimer c => s.startTimerBoundary c
  | .recovery c => if cycle then s.recoveryBoundary c else s
  | .idle c => if cycle then s.idleBoundary c else s

/-- Every piece of the work of a boundary, in the order taken where the command names none. -/
def allPieces : List BoundaryPiece :=
  [.hold, .scheduler] ++ (List.finRange 16).map .park ++ (List.finRange 16).map .revert ++
  (List.finRange 4).map .startTimer ++ (List.finRange 4).map .recovery ++ (List.finRange 4).map .idle

/-- Every signal that may be found asserted at an entry to STARTING. -/
def allSignals : List (Chan × StartSignal) :=
  (List.finRange 4).flatMap fun c => [(c, .grdy), (c, .govl)]

/-- The signals found asserted at entries to STARTING, taken after the boundary's work (R144). -/
def State.startSignals (s : State) (order : BoundaryOrder) : State :=
  ((ordered order.signals allSignals).foldl (fun s x => s.takeStartSignal x.1 x.2) s).clearEntryMarks

/-- A step boundary (R92, R93): every piece once, in the order the command gives, then the start signals (R144). -/
def State.boundary (s : State) (order : BoundaryOrder) : State :=
  let cycle := s.sched.position == 23
  ((ordered order.pieces allPieces).foldl (State.boundaryPiece order cycle) s).startSignals order

end Sys2Proof.Machine
end

