-- ==== Sys2Proof/Machine/MessagePort.lean ====
section
/-! DEFINITION. The Message Port: its own requests (R172, R173, R176), dispatch (R169), the transmitter (R170), the
receiver (R167, R168), and the soft reset (R176). -/

namespace Sys2Proof.Machine

/-! ## The port's own requests -/

/-- MASK_SET (R172). -/
def takeMaskSet (s : State) (masks : Byte) : State × Answer :=
  accept { s with port := { s.port with masks := masks } } [masks]

/-- The line flags as SUMMARY_READ sends them: line 2i low, line 2i + 1 high, in byte i (R178). -/
def Port.flagBytes (p : Port) : List Byte :=
  (List.finRange 8).map fun i : Fin 8 =>
    p.lineFlags.get (Fin.ofNat 16 (2 * i.val + 1)) ++ p.lineFlags.get (Fin.ofNat 16 (2 * i.val))

/-- SUMMARY_READ (R173). That the overrun flag is sent as 1 where set (log 22) and bits 2 to 7 of the part flags as 0 (log 29)
is the model's choice. -/
def takeSummaryRead (s : State) : State × Answer :=
  accept s
    (s.port.flagBytes ++
      [s.port.partFlags.setWidth 8, flagByte s.port.overrun, toByte s.port.indications.length])

/-- SUMMARY_ACK for a line (R173): the named flags are cleared. -/
def takeSummaryAckLine (s : State) (n : LineNo) (classes : BitVec 4) : State × Answer :=
  accept { s with port := { s.port with lineFlags := replaceAt s.port.lineFlags n (s.port.lineFlags.get n &&& ~~~classes) } }

/-- SUMMARY_ACK for the part (R173). -/
def takeSummaryAckPart (s : State) (classes : BitVec 2) : State × Answer :=
  accept { s with port := { s.port with partFlags := s.port.partFlags &&& ~~~classes } }

/-- SOFT_RESET (R176): answered OK; the reset is taken when that reply has been sent. -/
def takeSoftReset (s : State) : State × Answer := accept s

/-! ## Dispatch (R169) -/

/-- A request that passed the checks is taken by its owner (R169). -/
def takeRequest (s : State) : HostRequest → State × Answer
  | .profileLoad n p => takeProfileLoad s n p
  | .profileRead n staged => takeProfileRead s n staged
  | .profileClear n => takeProfileClear s n
  | .cadenceLoad p bursts => takeCadenceLoad s p bursts
  | .cadenceRead p => takeCadenceRead s p
  | .ring n d cycles => takeRing s n d cycles
  | .generalRing n cycles => takeGeneralRing s n cycles
  | .cancel n => takeCancel s n
  | .revert n called => takeRevert s n called
  | .release n => takeRelease s n
  | .block n => takeBlock s n
  | .unblock n => takeUnblock s n
  | .jobRead id => takeJobRead s id
  | .phaseRead c => takePhaseRead s c
  | .generatorSet c nominal => takeGeneratorSet s c nominal
  | .generatorReset c => takeGeneratorReset s c
  | .hold mode => takeHold s mode
  | .resume => takeResume s
  | .maskSet masks => takeMaskSet s masks
  | .summaryRead => takeSummaryRead s
  | .summaryAckLine n classes => takeSummaryAckLine s n classes
  | .summaryAckPart classes => takeSummaryAckPart s classes
  | .lineStatus n => takeLineStatus s n
  | .softReset => takeSoftReset s

/-- A request at its dispatch: the four checks in order, then its owner (R169). -/
def answerRequest (s : State) (r : Request) : State × Answer :=
  if s.port.startUp.isSome || r.marked then refuse s .notReady
  else
    match readRequest r.type r.payload with
    | .error status => refuse s status
    | .ok request => takeRequest s request

/-- The reply slot filled with the answer to a request (R169). -/
def State.fillReply (s : State) (r : Request) (a : Answer) : State :=
  { s with port := { s.port with reply := some { type := r.type, tag := r.tag, status := a.status, body := a.body } } }

/-- The dispatch of the request at the head of the buffer, when the reply slot is empty (R169). -/
def State.dispatch (s : State) : State :=
  match s.port.reply, s.port.requests with
  | none, r :: rest =>
    let taken := answerRequest { s with port := { s.port with requests := rest } } r
    taken.1.fillReply r taken.2
  | _, _ => s

/-! ## The transmitter (R170) -/

/-- The frame of a reply: type plus 80h, the request's tag, the status and the further bytes (R166, R178). -/
def Reply.frame (r : Reply) : List Byte :=
  frameOf (replyType r.type) r.tag (toByte r.status.ctorIdx :: r.body)

/-- The frame of a BUSY reply (R168). -/
def BusyEntry.frame (e : BusyEntry) : List Byte := frameOf (replyType e.type) e.tag [toByte Status.busy.ctorIdx]

/-- The transmission of a frame begins. -/
def State.send (s : State) (source : Source) (frame : List Byte) : State :=
  { s with port := { s.port with transmitter := some { source := source, frame := frame } } }

/-- The arbitration of a free transmitter: the oldest BUSY entry, else the reply, else the head of the Indication Queue
(R170). -/
def State.arbitrate (s : State) : State :=
  match s.port.transmitter with
  | some _ => s
  | none =>
    match s.port.busy, s.port.reply, s.port.indications with
    | e :: _, _, _ => s.send .busy e.frame
    | [], some r, _ => s.send .reply r.frame
    | [], none, i :: _ =>
      { s with freeCount := s.freeCount + i.free }.send .indication (frameOf i.typeCode 0#8 (i.bytes s.freeCount))
    | [], none, [] => s

/-! ## The soft reset (R176) -/

/-- A line's soft-reset values (R8, R26, R42, R43, R49, R71, R112, R113, R119, R142). -/
def Line.softReset (l : Line) : Line :=
  { l.commit with
    missCount := 0
    goodCount := 0
    state := match l.state with | .unconfigured => .unconfigured | .blocked => .blocked | _ => .idle
    applied := none
    hook := .onHook
    blanking := 0
    tripScore := 0
    window := .empty
    seizeResult := none
    park := none
    revert := none
    answered := none }

/-- A channel's soft-reset values (R156). -/
def Channel.softReset (ch : Channel) : Channel :=
  { ch with
    state := if ch.state = .absent then .absent else .off
    derate := 0
    recovery := 0
    overloadMark := false
    idleCount := 0
    startTimer := none
    entryMark := false }

/-- The Message Port's part of the soft reset, steps 1 to 3 of R176. -/
def Port.softReset (p : Port) : Port :=
  { p with
    requests := p.requests.map fun r => { r with marked := true }
    indications := []
    lineFlags := tabulate fun _ => 0#4
    partFlags := 0#2
    overrun := false
    startUp := some .soft }

/-- Every block at its soft-reset values (R176 step 4), before the LEAKY flags are brought up. -/
def State.softValues (s : State) : State :=
  { s with
    lines := tabulate fun n => (s.line n).softReset
    sched := .reset
    channels := tabulate fun c => (s.channel c).softReset
    hold := Hold.reset s.hold.storm
    port := s.port.softReset }

/-- The soft reset (R176); the LEAKY flags are brought up line by line in the order the command gives (R42; log 9). -/
def State.softReset (s : State) (lines : List LineNo) : State :=
  (ordered lines (List.finRange 16)).foldl State.updateLeaky s.softValues

/-! ## The completion of a transmission (R170, R174, R176) -/

/-- The OVERRUN_NOTICE of this moment (R174). -/
def Port.overrunNotice (p : Port) : Indication :=
  .overrunNotice
    (BitVec.ofNat 16 (((List.finRange 16).map fun n => if p.lineFlags.get n = 0#4 then 0 else 2 ^ n.val).sum))
    p.partFlags

/-- The head of the Indication Queue has been sent: it leaves the queue, and an overrun is noticed where the queue is
left empty (R170, R174). -/
def Port.indicationSent (p : Port) : Port :=
  let rest := p.indications.drop 1
  if rest = [] ∧ p.overrun then { p with indications := [p.overrunNotice], overrun := false }
  else { p with indications := rest }

/-- The reply is the OK of a SOFT_RESET (R176). -/
def Reply.endsInSoftReset (r : Reply) : Bool := r.type.toNat == 0x17 && r.status == .ok

/-- The source of a frame that has been sent is freed (R170), and a soft reset accepted is taken (R176). -/
def State.sent (s : State) (source : Source) (lines : List LineNo) : State :=
  match source with
  | .busy => { s with port := { s.port with busy := s.port.busy.drop 1 } }
  | .reply =>
    let freed := { s with port := { s.port with reply := none } }
    match s.port.reply with
    | some r => if r.endsInSoftReset then freed.softReset lines else freed
    | none => freed
  | .indication => { s with port := s.port.indicationSent }

/-- The completion of the transmission under way: its source is freed, the next request is dispatched, and the next
frame starts (R169, R170). That the dispatch into the emptied reply slot comes before the choice of the next frame, so that
the new reply goes ahead of the indications that wait, is the model's choice (log 28). Without a transmission nothing
happens. -/
def State.completeTransmission (s : State) (lines : List LineNo) : State :=
  match s.port.transmitter with
  | some t => (({ s with port := { s.port with transmitter := none } }.sent t.source lines).dispatch).arbitrate
  | none => s

/-! ## Reception (R167, R168) -/

/-- The receiver in a condition. -/
def State.setReceiver (s : State) (r : Receiver) : State := { s with port := { s.port with receiver := r } }

/-- The most requests the buffer holds, and the most entries of the BUSY list (R168). -/
def bufferLimit : Nat := 4

/-- A checked frame is taken: into the buffer, or its type and tag into the BUSY list (R168). -/
def State.takeFrame (s : State) (type tag : Byte) (payload : List Byte) : State :=
  if s.port.requests.length < bufferLimit then
    { s with
      port :=
        { s.port with
          requests := s.port.requests ++ [{ type := type, tag := tag, payload := payload, marked := false }] } }
  else { s with port := { s.port with busy := s.port.busy ++ [{ type := type, tag := tag }] } }

/-- A frame is complete: its sum is tested, and a checked frame is taken, with the dispatch and the arbitration that may
follow from it (R167 to R170). -/
def State.completeFrame (s : State) (count : Byte) (collected : List Byte) : State :=
  if byteSum (count :: collected) = 0#8 then
    match collected with
    | type :: tag :: rest => ((s.takeFrame type tag rest.dropLast).dispatch).arbitrate
    | _ => s
  else s

/-- A character with a good stop bit in BODY: collected, and the frame completed by its last (R167). -/
def State.collect (s : State) (count : Byte) (collected : List Byte) (character : Byte) : State :=
  let collected := collected ++ [character]
  if collected.length < count.toNat + 1 then s.setReceiver (.body count collected)
  else (s.setReceiver .hunt).completeFrame count collected

/-- A character at the receiver (R167, R168). In HUNT the stop bit is not examined (log 11); with 4 entries in the BUSY
list no frame is started. -/
def State.receive (s : State) (character : Byte) (stopBit : Bool) : State :=
  match s.port.receiver with
  | .hunt =>
    if character = marker ∧ s.port.busy.length < bufferLimit then s.setReceiver .count else s
  | .count =>
    if stopBit ∧ 2 ≤ character.toNat ∧ character.toNat ≤ 250 then s.setReceiver (.body character [])
    else s.setReceiver .hunt
  | .body count collected =>
    if stopBit then s.collect count collected character else s.setReceiver .hunt

/-- The characters of a frame arrive one after another, each with a good stop bit and within the timeout (R167). -/
def State.characters (s : State) (frame : List Byte) : State :=
  frame.foldl (fun s c => s.receive c true) s

/-- The host sends a request: the characters of its frame arrive (R166, R167). -/
def State.hostSends (s : State) (type tag : Byte) (payload : List Byte) : State :=
  s.characters (frameOf type tag payload)

/-- More than 20 ms since the last character: a frame in reception is discarded (R167). -/
def State.characterGap (s : State) : State := s.setReceiver .hunt

end Sys2Proof.Machine
end

