-- ==== Sys2Proof/Machine/Events.lean ====
section
/-! DEFINITION. The meanings of the events: reset, sample arrivals, step boundaries, generator signals, STORM, characters
and transmissions. A row that the table names by an outcome carries its stimulus, and its meaning is what the rules make
of the stimulus (log 2). Each event ends with the arbitration of a transmitter that is free (R170). -/

namespace Sys2Proof.Machine

/-- The outcome of every command: a next state. -/
abbrev Result := Host.Outcome State Fault Refusal

/-- POWER_ON_RESET (R8, R26, R42, R71, R91, R112, R156, R164, R175). The commands waiting and the count of free values are
no state of the part; the levels of GRDY and GOVL are inputs and stand (log 14). -/
def execPowerOnReset (rate1 rate0 storm : Bool) (s : State) : Result :=
  .next { State.powerOn rate1 rate0 storm s.channels with freeCount := s.freeCount, pending := s.pending }

/-- A sample arrival, with what it produced offered to the transmitter (R29, R170). -/
def State.arrivalEvent (s : State) (reply : BitVec 26) : State := (s.arrival reply).arbitrate

/-- A step boundary, with what it produced offered to the transmitter (R93, R170). -/
def State.boundaryEvent (s : State) (order : BoundaryOrder) : State := (s.boundary order).arbitrate

/-- SAMPLE_ARRIVAL (R21 to R26, R29). -/
def execSampleArrival (reply : BitVec 26) (s : State) : Result := .next (s.arrivalEvent reply)

/-- SCAN_FAULT (R24, R68): the arrival at which the miss count stands at 3. -/
def execScanFault (reply : BitVec 26) (s : State) : Result := .next (s.arrivalEvent reply)

/-- FAULT_RECOVERY (R25, R69): the arrival at which the good count reaches 50. -/
def execFaultRecovery (reply : BitVec 26) (s : State) : Result := .next (s.arrivalEvent reply)

/-- SEIZURE (R34, R44, R57): the arrival that confirms off-hook in IDLE. -/
def execSeizure (reply : BitVec 26) (s : State) : Result := .next (s.arrivalEvent reply)

/-- ID_WINDOW_END (R46 to R49): the twentieth arrival of an ID window. -/
def execIdWindowEnd (reply : BitVec 26) (s : State) : Result := .next (s.arrivalEvent reply)

/-- TRIP (R116 to R118): the arrival that brings the trip score to 4. -/
def execTrip (reply : BitVec 26) (s : State) : Result := .next (s.arrivalEvent reply)

/-- DIGIT (R38): the arrival at which the make count reaches 30 with a digit in progress. -/
def execDigit (reply : BitVec 26) (s : State) : Result := .next (s.arrivalEvent reply)

/-- CLEAR (R40, R59): the arrival at which a break reaches the clear time in SEIZED, TALK or LINGER. -/
def execClear (reply : BitVec 26) (s : State) : Result := .next (s.arrivalEvent reply)

/-- CALLER_HANG_UP (R40, R131): the same in REVERT_WAIT. -/
def execCallerHangUp (reply : BitVec 26) (s : State) : Result := .next (s.arrivalEvent reply)

/-- REVERT_CLEARED (R40, R138): the same in REVERT_TALK. -/
def execRevertCleared (reply : BitVec 26) (s : State) : Result := .next (s.arrivalEvent reply)

/-- RECEIVER_RETURN (R40, R64): the same in LOCKOUT. -/
def execReceiverReturn (reply : BitVec 26) (s : State) : Result := .next (s.arrivalEvent reply)

/-- STARTED (R26, R175): the end of the exchange with line circuit 15 in the start-up state. -/
def execStarted (reply : BitVec 26) (s : State) : Result := .next (s.arrivalEvent reply)

/-- STEP_BOUNDARY (R92, R93). -/
def execStepBoundary (order : BoundaryOrder) (s : State) : Result := .next (s.boundaryEvent order)

/-- NO_ANSWER (R103): the boundary at which a job's cycles remaining reach 0. -/
def execNoAnswer (order : BoundaryOrder) (s : State) : Result := .next (s.boundaryEvent order)

/-- NO_CAPACITY (R88): the boundary at which a job's waiting steps reach 480. -/
def execNoCapacity (order : BoundaryOrder) (s : State) : Result := .next (s.boundaryEvent order)

/-- STARVED (R99): the boundary at whose search a job's skips reach 48. -/
def execStarved (order : BoundaryOrder) (s : State) : Result := .next (s.boundaryEvent order)

/-- PERMANENT_LOOP (R62): the boundary at which a park timer reaches 0. -/
def execPermanentLoop (order : BoundaryOrder) (s : State) : Result := .next (s.boundaryEvent order)

/-- CALLER_STAYED (R130): the boundary at which the wait steps of a call reach 0. -/
def execCallerStayed (order : BoundaryOrder) (s : State) : Result := .next (s.boundaryEvent order)

/-- START_TIMEOUT (R148): the boundary at which a start timer reaches 0. -/
def execStartTimeout (order : BoundaryOrder) (s : State) : Result := .next (s.boundaryEvent order)

/-- RECOVERY (R153): the cycle boundary at which a recovery count reaches 10. -/
def execRecovery (order : BoundaryOrder) (s : State) : Result := .next (s.boundaryEvent order)

/-- IDLE_STOP (R154): the cycle boundary at which an idle count reaches 4. -/
def execIdleStop (order : BoundaryOrder) (s : State) : Result := .next (s.boundaryEvent order)

/-- SIGNAL_AT_START (R144): the boundary whose placements start a channel with GRDY or GOVL already asserted. -/
def execSignalAtStart (order : BoundaryOrder) (s : State) : Result := .next (s.boundaryEvent order)

/-- READY (R144, R148): GRDY is asserted. -/
def execReady (c : Chan) (s : State) : Result := .next (s.grdyAsserted c).arbitrate

/-- READY_LOST (R144, R152): GRDY is withdrawn. -/
def execReadyLost (c : Chan) (s : State) : Result := .next (s.grdyWithdrawn c).arbitrate

/-- OVERLOAD (R144, R149): GOVL is asserted. -/
def execOverload (c : Chan) (s : State) : Result := .next (s.govlAsserted c).arbitrate

/-- GOVL_WITHDRAWN (R144). -/
def execGovlWithdrawn (c : Chan) (s : State) : Result := .next (s.govlWithdrawn c)

/-- The read of STORM, once per round, at its start and before the exchange with line circuit 0 (R160), which then carries
the command as the read leaves it (R22; log 4). Where no read is due the level is not looked at, and nothing changes
(log 5). -/
def State.stormRead (s : State) (found : State → State) : State :=
  if s.scan.position = 0 ∧ s.scan.stormDue = true then ((found s).beginExchange 0 false).arbitrate else s

/-- STORM_ASSERTION (R160): the round's read finds STORM asserted. -/
def execStormAssertion (s : State) : Result := .next (s.stormRead State.stormAsserted)

/-- STORM_DEASSERTION (R160): the round's read finds STORM deasserted. -/
def execStormDeassertion (s : State) : Result := .next (s.stormRead State.stormDeasserted)

/-- CHARACTER_ARRIVAL (R167): a character, and whether its stop bit is high. -/
def execCharacterArrival (character : Byte) (stopBit : Bool) (s : State) : Result := .next (s.receive character stopBit)

/-- FRAME_RECEIVED (R166 to R169). -/
def execFrameReceived (characters : List Byte) (s : State) : Result := .next (s.characters characters)

/-- CHARACTER_TIMEOUT (R167). -/
def execCharacterTimeout (s : State) : Result := .next s.characterGap

/-- TRANSMISSION_COMPLETE (R169, R170, R174, R176). -/
def execTransmissionComplete (lines : List LineNo) (s : State) : Result := .next (s.completeTransmission lines)

end Sys2Proof.Machine
end

