-- ==== Sys2Proof/Machine/Requests.lean ====
section
/-! DEFINITION. The meanings of the requests. The host sends the request's frame; it joins the request buffer, and is
dispatched to its owner when the reply slot is empty (R168, R169; log 10). What each owner does stands with the owner:
takeRing, takeBlock and so on. -/

namespace Sys2Proof.Machine

/-- UNKNOWN_REQUEST (R169). -/
def execUnknownRequest (type tag : Byte) (payload : List Byte) (s : State) : Result :=
  .next (s.hostSends type tag payload)

/-- PROFILE_LOAD (R11, R16). -/
def execProfileLoad (tag line : Byte) (profile : RawProfile) (s : State) : Result :=
  .next (s.hostSends 0x01#8 tag (line :: profile.bytes))

/-- PROFILE_READ (R19). -/
def execProfileRead (tag line selector : Byte) (s : State) : Result := .next (s.hostSends 0x02#8 tag [line, selector])

/-- PROFILE_CLEAR (R20). -/
def execProfileClear (tag line : Byte) (s : State) : Result := .next (s.hostSends 0x03#8 tag [line])

/-- CADENCE_LOAD (R6). -/
def execCadenceLoad (tag pattern : Byte) (bursts : List (Byte × Byte)) (s : State) : Result :=
  .next (s.hostSends 0x04#8 tag (pattern :: toByte bursts.length :: burstBytes bursts))

/-- CADENCE_READ (R7). -/
def execCadenceRead (tag pattern : Byte) (s : State) : Result := .next (s.hostSends 0x05#8 tag [pattern])

/-- RING (R77, R78). -/
def execRing (tag line digit cycles : Byte) (s : State) : Result :=
  .next (s.hostSends 0x06#8 tag [line, digit, cycles])

/-- GENERAL_RING (R79, R80). -/
def execGeneralRing (tag line cycles : Byte) (s : State) : Result := .next (s.hostSends 0x07#8 tag [line, cycles])

/-- CANCEL (R83). -/
def execCancel (tag line : Byte) (s : State) : Result := .next (s.hostSends 0x08#8 tag [line])

/-- REVERT (R127, R129). -/
def execRevert (tag line called : Byte) (s : State) : Result := .next (s.hostSends 0x09#8 tag [line, called])

/-- RELEASE (R60). -/
def execRelease (tag line : Byte) (s : State) : Result := .next (s.hostSends 0x0A#8 tag [line])

/-- BLOCK (R65). -/
def execBlock (tag line : Byte) (s : State) : Result := .next (s.hostSends 0x0B#8 tag [line])

/-- UNBLOCK (R66). -/
def execUnblock (tag line : Byte) (s : State) : Result := .next (s.hostSends 0x0C#8 tag [line])

/-- JOB_READ (R90). -/
def execJobRead (tag job : Byte) (s : State) : Result := .next (s.hostSends 0x0D#8 tag [job])

/-- PHASE_READ (R111). -/
def execPhaseRead (tag channel : Byte) (s : State) : Result := .next (s.hostSends 0x0E#8 tag [channel])

/-- GENERATOR_SET (R145). -/
def execGeneratorSet (tag channel nominal : Byte) (s : State) : Result :=
  .next (s.hostSends 0x0F#8 tag [channel, nominal])

/-- GENERATOR_RESET (R146). -/
def execGeneratorReset (tag channel : Byte) (s : State) : Result := .next (s.hostSends 0x10#8 tag [channel])

/-- HOLD (R158). -/
def execHold (tag mode : Byte) (s : State) : Result := .next (s.hostSends 0x11#8 tag [mode])

/-- RESUME (R161). -/
def execResume (tag : Byte) (s : State) : Result := .next (s.hostSends 0x12#8 tag [])

/-- MASK_SET (R172). -/
def execMaskSet (tag masks : Byte) (s : State) : Result := .next (s.hostSends 0x13#8 tag [masks])

/-- SUMMARY_READ (R173). -/
def execSummaryRead (tag : Byte) (s : State) : Result := .next (s.hostSends 0x14#8 tag [])

/-- SUMMARY_ACK (R173). -/
def execSummaryAck (tag target classes : Byte) (s : State) : Result :=
  .next (s.hostSends 0x15#8 tag [target, classes])

/-- LINE_STATUS (R177). -/
def execLineStatus (tag line : Byte) (s : State) : Result := .next (s.hostSends 0x16#8 tag [line])

/-- SOFT_RESET (R176): its acceptance; the reset itself is taken at the completion of its reply. -/
def execSoftReset (tag : Byte) (s : State) : Result := .next (s.hostSends 0x17#8 tag [])

end Sys2Proof.Machine
end

