-- ==== Sys2Proof/Machine/Dispatch.lean ====
section
/-! DEFINITION. The meaning of every command, one arm per constructor. -/

namespace Sys2Proof.Machine

def exec (i : Instr) (s : State) : Host.Outcome State Fault Refusal :=
  match i with
  | .powerOnReset rate1 rate0 storm => Sys2Proof.Machine.execPowerOnReset rate1 rate0 storm s
  | .sampleArrival reply => Sys2Proof.Machine.execSampleArrival reply s
  | .scanFault reply => Sys2Proof.Machine.execScanFault reply s
  | .faultRecovery reply => Sys2Proof.Machine.execFaultRecovery reply s
  | .seizure reply => Sys2Proof.Machine.execSeizure reply s
  | .idWindowEnd reply => Sys2Proof.Machine.execIdWindowEnd reply s
  | .trip reply => Sys2Proof.Machine.execTrip reply s
  | .digit reply => Sys2Proof.Machine.execDigit reply s
  | .clear reply => Sys2Proof.Machine.execClear reply s
  | .callerHangUp reply => Sys2Proof.Machine.execCallerHangUp reply s
  | .revertCleared reply => Sys2Proof.Machine.execRevertCleared reply s
  | .receiverReturn reply => Sys2Proof.Machine.execReceiverReturn reply s
  | .stepBoundary order => Sys2Proof.Machine.execStepBoundary order s
  | .noAnswer order => Sys2Proof.Machine.execNoAnswer order s
  | .noCapacity order => Sys2Proof.Machine.execNoCapacity order s
  | .starved order => Sys2Proof.Machine.execStarved order s
  | .permanentLoop order => Sys2Proof.Machine.execPermanentLoop order s
  | .callerStayed order => Sys2Proof.Machine.execCallerStayed order s
  | .startTimeout order => Sys2Proof.Machine.execStartTimeout order s
  | .recovery order => Sys2Proof.Machine.execRecovery order s
  | .idleStop order => Sys2Proof.Machine.execIdleStop order s
  | .ready channel => Sys2Proof.Machine.execReady channel s
  | .readyLost channel => Sys2Proof.Machine.execReadyLost channel s
  | .overload channel => Sys2Proof.Machine.execOverload channel s
  | .govlWithdrawn channel => Sys2Proof.Machine.execGovlWithdrawn channel s
  | .signalAtStart order => Sys2Proof.Machine.execSignalAtStart order s
  | .stormAssertion => Sys2Proof.Machine.execStormAssertion s
  | .stormDeassertion => Sys2Proof.Machine.execStormDeassertion s
  | .started reply => Sys2Proof.Machine.execStarted reply s
  | .frameReceived characters => Sys2Proof.Machine.execFrameReceived characters s
  | .characterTimeout => Sys2Proof.Machine.execCharacterTimeout s
  | .transmissionComplete lines => Sys2Proof.Machine.execTransmissionComplete lines s
  | .unknownRequest type tag payload => Sys2Proof.Machine.execUnknownRequest type tag payload s
  | .profileLoad tag line profile => Sys2Proof.Machine.execProfileLoad tag line profile s
  | .profileRead tag line selector => Sys2Proof.Machine.execProfileRead tag line selector s
  | .profileClear tag line => Sys2Proof.Machine.execProfileClear tag line s
  | .cadenceLoad tag pattern bursts => Sys2Proof.Machine.execCadenceLoad tag pattern bursts s
  | .cadenceRead tag pattern => Sys2Proof.Machine.execCadenceRead tag pattern s
  | .ring tag line digit cycles => Sys2Proof.Machine.execRing tag line digit cycles s
  | .generalRing tag line cycles => Sys2Proof.Machine.execGeneralRing tag line cycles s
  | .cancel tag line => Sys2Proof.Machine.execCancel tag line s
  | .release tag line => Sys2Proof.Machine.execRelease tag line s
  | .block tag line => Sys2Proof.Machine.execBlock tag line s
  | .unblock tag line => Sys2Proof.Machine.execUnblock tag line s
  | .revert tag line called => Sys2Proof.Machine.execRevert tag line called s
  | .jobRead tag job => Sys2Proof.Machine.execJobRead tag job s
  | .phaseRead tag channel => Sys2Proof.Machine.execPhaseRead tag channel s
  | .generatorSet tag channel nominal => Sys2Proof.Machine.execGeneratorSet tag channel nominal s
  | .generatorReset tag channel => Sys2Proof.Machine.execGeneratorReset tag channel s
  | .hold tag mode => Sys2Proof.Machine.execHold tag mode s
  | .resume tag => Sys2Proof.Machine.execResume tag s
  | .maskSet tag masks => Sys2Proof.Machine.execMaskSet tag masks s
  | .summaryRead tag => Sys2Proof.Machine.execSummaryRead tag s
  | .summaryAck tag target classes => Sys2Proof.Machine.execSummaryAck tag target classes s
  | .lineStatus tag line => Sys2Proof.Machine.execLineStatus tag line s
  | .softReset tag => Sys2Proof.Machine.execSoftReset tag s
  | .characterArrival character stopBit => Sys2Proof.Machine.execCharacterArrival character stopBit s

end Sys2Proof.Machine
end

