-- ==== Sys2Proof/Safety.lean ====
section
/-! DEFINITION. What holds of a safe run: the ranges and relations that the spec gives the fields of the state, and the
conditions on a state under which the claims say what a command does. -/

namespace Sys2Proof.Machine

/-! ## Conditions on the link -/

/-- The host may send a request and see it taken at once: no frame is in reception, the request buffer, the BUSY list
and the reply slot are empty, and the start-up state is over (R167 to R169, R175). -/
structure State.LinkReady (s : State) : Prop where
  receiver : s.port.receiver = .hunt
  requests : s.port.requests = []
  busy : s.port.busy = []
  reply : s.port.reply = none
  startUp : s.port.startUp = none

/-- The state with a reply placed in the reply slot, its transmission begun where the transmitter is free (R169,
R170). -/
def State.replied (s : State) (type tag : Byte) (status : Status) (body : List Byte := []) : State :=
  { s with
    port :=
      { s.port with
        reply := some { type := type, tag := tag, status := status, body := body }
        transmitter :=
          match s.port.transmitter with
          | some t => some t
          | none =>
            some { source := .reply, frame := frameOf (type + 0x80#8) tag (toByte status.ctorIdx :: body) } } }

/-- What a change of state leaves alone where it acts on line `n` only: every other line, the Cadence Table, the Scan Bus
round and the waiting commands. -/
structure State.SameOutside (n : LineNo) (s t : State) : Prop where
  lines : ∀ m, m ≠ n → t.line m = s.line m
  cadence : t.cadence = s.cadence
  scan : t.scan = s.scan
  pending : t.pending = s.pending

/-! ## Conditions on the ring plan -/

/-- The arrival stamp the next job takes (R74): the value of the counter, or, with the counter at its limit, the number of
jobs in use, which are then renumbered 0, 1, 2 … -/
def State.nextArrival (s : State) : Nat :=
  if s.sched.arrivalCounter = 4294967295 then (List.finRange 32).countP fun id => (s.job id).isSome
  else s.sched.arrivalCounter

/-- A job in use as the creation of another job leaves it (R74): with the counter at its limit its arrival stamp is the
number of jobs that arrived before it, otherwise it stands. -/
def State.afterCreation (s : State) (j : Job) : Job :=
  if s.sched.arrivalCounter = 4294967295 then
    { j with arrival := (List.finRange 32).countP fun id => (s.job id).any fun k => decide (k.arrival < j.arrival) }
  else j

/-- No job is in use. -/
structure State.NoJobs (s : State) : Prop where
  jobs : ∀ id, s.job id = none
  queue : s.sched.queue = []
  placements : s.sched.placements = []

/-- One job is in use, and it is WAITING. -/
structure State.OneWaiting (s : State) (id : JobId) (j : Job) : Prop where
  job : s.job id = some j
  others : ∀ other, other ≠ id → s.job other = none
  waiting : j.phase = .waiting
  queue : s.sched.queue = [id]
  placements : s.sched.placements = []

/-- One job is in use, and it is PLACED with this entry. -/
structure State.OnePlaced (s : State) (id : JobId) (j : Job) (e : Placement) : Prop where
  job : s.job id = some j
  others : ∀ other, other ≠ id → s.job other = none
  placed : ∃ stamp, j.phase = .placed e.offset stamp
  entry : e.job = id
  queue : s.sched.queue = []
  placements : s.sched.placements = [e]

/-- A step boundary brings nothing but Hold Control's and the Ring Scheduler's work: it is no cycle boundary, no timer of
a line runs, and no channel is STARTING or has just been started (R92). -/
structure State.Quiet (s : State) : Prop where
  position : s.sched.position ≠ 23
  lines : ∀ n, (s.line n).state ≠ .linger ∧ (s.line n).state ≠ .revertWait ∧ (s.line n).state ≠ .revertTalk
  channels : ∀ c, (s.channel c).state ≠ .starting ∧ (s.channel c).entryMark = false

/-- A step boundary brings nothing but the Ring Scheduler's work: it is quiet, and Hold Control is not RESUMING (R92). -/
structure State.Calm (s : State) : Prop extends s.Quiet where
  hold : s.hold.state ≠ .resuming

/-! ## Profiles (R9 to R15) -/

/-- The lower and the upper end of a party's identification window (R10). -/
def Party.windowLow (q : Party) : Nat := q.idNominal.getD 0 - tolerance (q.idNominal.getD 0)

def Party.windowHigh (q : Party) : Nat := q.idNominal.getD 0 + tolerance (q.idNominal.getD 0)

/-- A party entry within the ranges of R10. -/
structure Party.Valid (q : Party) : Prop where
  load : 1 ≤ q.load ∧ q.load ≤ 6
  idRange : ∀ nominal ∈ q.idNominal, 8 ≤ nominal ∧ nominal ≤ 160
  idPresent : q.idNominal.isSome = (q.idSide != .none)

/-- Two parties that may stand on one line (R12 to R14): digits and codes differ, and the identification windows of one
side share no value. -/
structure Party.Apart (q r : Party) : Prop where
  digit : q.digit ≠ r.digit
  code : q.code ≠ r.code
  side : q.idSide = .none → r.idSide ≠ .none
  window : q.idSide = r.idSide → q.windowHigh < r.windowLow ∨ r.windowHigh < q.windowLow

/-- A profile that has passed the checks (R9 to R15). -/
structure Profile.Valid (p : Profile) : Prop where
  count : 1 ≤ p.parties.length ∧ p.parties.length ≤ 10
  parties : ∀ q ∈ p.parties, q.Valid
  apart : p.parties.Pairwise Party.Apart
  codeLoad : ∀ code, p.codeLoad code ≤ 24
  resistance : p.resistance ≤ 6000
  hookMargin : 8 ≤ p.hookMargin ∧ p.hookMargin ≤ 80
  leakLimit : 8 ≤ p.leakLimit ∧ p.leakLimit ≤ 160
  clearTime : 20 ≤ p.clearTime ∧ p.clearTime ≤ 200
  ringTimeout : 1 ≤ p.ringTimeout ∧ p.ringTimeout ≤ 40
  revertWait : 8 ≤ p.revertWait ∧ p.revertWait ≤ 120
  parkTime : 40 ≤ p.parkTime ∧ p.parkTime ≤ 480

/-! ## Invariants of the blocks -/

/-- The ID window record of a line in a state (R43). -/
def IdWindow.Inv (w : IdWindow) (state : LineState) : Prop :=
  match state with
  | .seizeId | .answerId =>
    w.kind = some (if state = .seizeId then .seize else .answer) ∧ w.arrivals ≤ 19 ∧
      w.phase = (if w.arrivals ≤ 4 then .settling else .accumulating) ∧
      w.tipSum ≤ 255 * (w.arrivals - 4) ∧ w.ringSum ≤ 255 * (w.arrivals - 4)
  | .unconfigured | .idle | .seized | .ringing | .talk | .revertWait | .revertTalk | .linger | .lockout | .blocked
  | .fault => w = .empty

/-- What the spec says of the fields of one line (R8, R23 to R25, R30, R33, R34, R36, R37, R43, R55, R62, R107, R113,
R119). -/
structure Line.Inv (l : Line) : Prop where
  active : ∀ p ∈ l.active, p.Valid
  staged : ∀ p ∈ l.staged, p.Valid
  configured : l.state = .unconfigured ↔ l.active = none
  stagedBeside : l.active = none → l.staged = none
  leaky : l.active = none → l.leaky = false
  sample : l.lastGood.loop ≤ 255 ∧ l.lastGood.tip ≤ 255 ∧ l.lastGood.ring ≤ 255
  missCount : l.missCount ≤ 3
  goodCount : l.goodCount ≤ 50
  baseline : l.baseline ≤ 4080
  disagreement : l.hook.disagreement ≤ 1
  breakCount : l.hook.breakCount ≤ 200
  makeCount : l.hook.makeCount ≤ 30
  pulseCount : l.hook.pulseCount ≤ 15
  digit : l.state ≠ .seized → l.hook.pulseCount = 0
  blanking : l.blanking ≤ 2
  tripScore : l.tripScore ≤ 3
  ringing : l.state ≠ .ringing → l.applied = none ∧ l.blanking = 0 ∧ l.tripScore = 0
  window : l.window.Inv l.state
  park : l.park.isSome ↔ l.state = .linger
  parkRange : ∀ timer ∈ l.park, 1 ≤ timer ∧ timer ≤ 480
  answered : l.state ≠ .answerId → l.answered = none

/-- What the spec says of the record of one channel (R143). -/
structure Channel.Inv (ch : Channel) : Prop where
  nominal : ch.nominal ≤ 60
  absent : ch.state = .absent ↔ ch.nominal = 0
  derate : ch.derate ≤ 2
  recovery : ch.recovery ≤ 9
  recoveryZero : ch.derate = 0 → ch.recovery = 0
  idleCount : ch.idleCount ≤ 3
  idleZero : ch.grun = false → ch.idleCount = 0
  startTimer : ch.startTimer.isSome ↔ ch.state = .starting
  timerRange : ∀ timer ∈ ch.startTimer, 1 ≤ timer ∧ timer ≤ 8
  entryMark : ch.entryMark = false

/-- What the spec says of the hold record (R157, R160). -/
def Hold.Inv (h : Hold) : Prop :=
  (h.storm = true → h.state = .held ∧ h.mode = some .now ∧ h.cause = some .storm) ∧
  match h.state with
  | .running => h.mode = none
  | .holdPending => h.mode = some .endOfBurst ∧ h.cause = some .request
  | .held => h.mode.isSome ∧ h.cause.isSome
  | .resuming => h.mode = none ∧ h.cause = some .request

/-- A read of STORM is due only at the start of a round, before the exchange with line circuit 0 (R160). -/
def Scan.Inv (c : Scan) : Prop := c.stormDue = true → c.position = 0

/-- The receiver holds a frame it may go on with (R166, R167). -/
def Receiver.Inv : Receiver → Prop
  | .hunt | .count => True
  | .body n collected => 2 ≤ n.toNat ∧ n.toNat ≤ 250 ∧ collected.length ≤ n.toNat

/-- The transmitter sends the first of what is present, and stands free only where nothing is (R170). -/
def Port.Sending (p : Port) : Prop :=
  match p.transmitter with
  | none => p.busy = [] ∧ p.reply = none ∧ p.indications = []
  | some t =>
    match t.source with
    | .busy => ∃ e rest, p.busy = e :: rest ∧ t.frame = e.frame
    | .reply => ∃ r, p.reply = some r ∧ t.frame = r.frame
    | .indication => ∃ i rest free, p.indications = i :: rest ∧ t.frame = frameOf i.typeCode 0#8 (i.bytes free)

/-- What the spec says of the Message Port (R167 to R172). -/
structure Port.Inv (p : Port) : Prop where
  receiver : p.receiver.Inv
  requests : p.requests.length ≤ 4
  busy : p.busy.length ≤ 4
  held : p.busy.length = 4 → p.receiver = .hunt
  taken : p.reply = none → p.requests = []
  indications : p.indications.length ≤ 32
  masks : p.masks.toNat < 32
  sending : p.Sending

/-- The invariants of the lines, the channels, Hold Control and the Message Port. -/
structure State.BlocksInv (s : State) : Prop where
  lines : ∀ n, (s.line n).Inv
  channels : ∀ c, (s.channel c).Inv
  hold : s.hold.Inv
  port : s.port.Inv

/-! ## The ring plan (R73 to R76, R89, R94 to R96, R105, R119, R126) -/

/-- The fields of a job in use (R72). -/
structure Job.Inv (j : Job) : Prop where
  codes : 1 ≤ j.codes.length ∧ j.codes.length ≤ 8
  codeIndex : j.codeIndex < j.codes.length
  remaining : 1 ≤ j.remaining
  cycles : j.rung + j.remaining ≤ 40
  skips : j.skips ≤ 48
  starved : j.starved = true ↔ j.skips = 48
  waitingSteps : j.waitingSteps < 480
  target : j.target = none ↔ j.kind = .general
  rang : j.rang = true → j.offset.isSome

/-- The Job Table (R72 to R75, R89): every job is on a line in RINGING, such a line has a WAITING or PLACED job, no two
jobs of one line are both HELD or both not, a HELD job is beneath a GENERAL job, and no job names a channel out of
service. -/
structure State.JobsInv (s : State) : Prop where
  fields : ∀ id, ∀ j ∈ s.job id, j.Inv
  ringing : ∀ id, ∀ j ∈ s.job id, (s.line j.line).state = .ringing
  present : ∀ n, (s.line n).state = .ringing → (s.activeJob n).isSome
  unique : ∀ a b, ∀ x ∈ s.job a, ∀ y ∈ s.job b, x.line = y.line → x.isHeld = y.isHeld → a = b
  held : ∀ id, ∀ j ∈ s.job id, j.isHeld = true →
    j.kind ≠ .general ∧ ∃ above, ∃ g ∈ s.job above, g.line = j.line ∧ g.kind = .general ∧ g.isHeld = false
  inService : ∀ id, ∀ j ∈ s.job id, s.channelOut j.codes = false

/-- The Ring Request Queue (R74, R76): the WAITING jobs and no others, each once, in order of class and arrival
stamp. -/
structure State.QueueInv (s : State) : Prop where
  once : s.sched.queue.Nodup
  waiting : ∀ id, id ∈ s.sched.queue ↔ ∃ j ∈ s.job id, j.isWaiting = true
  order : s.sched.queue.Pairwise fun a b => s.queuedBefore a b = true
  stamps : ∀ a b, ∀ x ∈ s.job a, ∀ y ∈ s.job b, x.arrival = y.arrival → a = b
  counter : s.sched.arrivalCounter ≤ stampLimit ∧ ∀ id, ∀ j ∈ s.job id, j.arrival < s.sched.arrivalCounter

/-- The placement list (R74, R94): one entry for each PLACED job, in increasing order of placement stamp. -/
structure State.PlacementsInv (s : State) : Prop where
  entries : ∀ e ∈ s.sched.placements, ∃ j ∈ s.job e.job, j.offset = some e.offset
  jobs : ∀ id, ∀ j ∈ s.job id, j.offset.isSome → ∃ e ∈ s.sched.placements, e.job = id
  order : s.sched.placements.Pairwise fun a b =>
    ∃ x ∈ s.job a.job, ∃ y ∈ s.job b.job, ∃ m ∈ x.stamp, ∃ n ∈ y.stamp, m < n
  counter : s.sched.placementCounter ≤ stampLimit ∧
    ∀ id, ∀ j ∈ s.job id, ∀ m ∈ j.stamp, m < s.sched.placementCounter

/-- The law of the Ring Phase Table (R94, R96): a cell holds the sum of the demand of the placed jobs, within E(c). -/
structure State.CellsInv (s : State) : Prop where
  sum : ∀ c k, s.cell c k = (s.sched.placements.map fun e => s.entryDemand e c k).sum
  budget : ∀ c k, s.cell c k ≤ (s.channel c).effective

/-- Applied codes (R94, R105, R106): a line carries the code its job's entry holds and no other, and a code stands
applied only where its job has begun and wants it ON, its channel is RUNNING, and Hold Control is RUNNING or
HOLD_PENDING; in HOLD_PENDING some code does. -/
structure State.AppliedInv (s : State) : Prop where
  entry : ∀ e ∈ s.sched.placements, ∀ j ∈ s.job e.job, (s.line j.line).applied = e.applied
  line : ∀ n, (s.line n).applied.isSome → ∃ e ∈ s.sched.placements, ∃ j ∈ s.job e.job, j.line = n
  wanted : ∀ e ∈ s.sched.placements, ∀ j ∈ s.job e.job, ∀ q ∈ e.applied,
    e.begun = true ∧ s.wanted e j = some q ∧ (s.hold.state = .running ∨ s.hold.state = .holdPending)
  pending : s.hold.state = .holdPending → s.appliedCount ≠ 0

/-- A present revert context (R126): its parties are on the line, and its counts are in range. -/
structure RevertContext.Inv (c : RevertContext) (l : Line) : Prop where
  parties : ∃ p ∈ l.active, (p.party c.caller).isSome ∧ (p.party c.called).isSome
  seize : l.seizeResult.isSome
  retries : c.retries ≤ 3
  waitSteps : c.waitSteps ≤ 120
  waiting : l.state = .revertWait → 1 ≤ c.waitSteps
  talkSteps : c.talkSteps ≤ 65535

/-- The revert contexts and the answered-job records (R119, R126), by the state of the line. -/
structure State.RevertsInv (s : State) : Prop where
  fields : ∀ n, ∀ c ∈ (s.line n).revert, c.Inv (s.line n)
  seized : ∀ n, (s.line n).state = .seized → (s.line n).seizeResult.isSome
  job : ∀ n, ∀ c ∈ (s.line n).revert,
    (s.line n).state = .ringing ∧ (∃ id ∈ c.job, ∃ j ∈ s.job id, j.kind = .revert ∧ j.line = n) ∨
    c.job = none ∧ ((s.line n).state = .revertWait ∨ (s.line n).state = .revertTalk ∨ (s.line n).state = .answerId)
  present : ∀ n, (s.line n).state = .revertWait ∨ (s.line n).state = .revertTalk → (s.line n).revert.isSome
  ringing : ∀ id, ∀ j ∈ s.job id, j.kind = .revert → ∃ c ∈ (s.line j.line).revert, c.job = some id
  answer : ∀ n, (s.line n).state = .answerId →
    ∃ a ∈ (s.line n).answered, a.kind = .revert ↔ (s.line n).revert.isSome

/-- The ring plan as the spec describes it between events. -/
structure State.RingPlanInv (s : State) : Prop where
  jobs : s.JobsInv
  queue : s.QueueInv
  placements : s.PlacementsInv
  cells : s.CellsInv
  applied : s.AppliedInv
  reverts : s.RevertsInv

end Sys2Proof.Machine
end

