-- ==== Sys2Proof/WellFormed.lean ====
section
/-! DEFINITION. Which terms of `Instr` stand for something that can come to the part: frames within the count of
R166, and orders that name nothing twice. `exec` is total on every term, well-formed or not. -/

namespace Sys2Proof

/-- A frame as R166 lays it out: the marker, a count of 2 to 250, and that many bytes and the check byte. -/
def Frame.wf : List Byte → Bool
  | marker :: count :: rest =>
    marker == 0xA5#8 && decide (2 ≤ count.toNat) && decide (count.toNat ≤ 250) && rest.length == count.toNat + 1
  | _ => false

/-- No list of a boundary order names an item twice. -/
def BoundaryOrder.wf (o : BoundaryOrder) : Bool :=
  decide o.pieces.Nodup && decide o.jobs.Nodup && decide o.starts.Nodup && decide o.signals.Nodup

/-- The longest payload of a frame: a count of 250 less type and tag (R166). -/
def maxPayload : Nat := 248

/-- The terms that stand for a command. -/
def Instr.wf : Instr → Bool
  | .stepBoundary o | .noAnswer o | .noCapacity o | .starved o | .permanentLoop o | .callerStayed o
  | .startTimeout o | .recovery o | .idleStop o | .signalAtStart o => o.wf
  | .frameReceived characters => Frame.wf characters
  | .transmissionComplete lines => decide lines.Nodup
  | .unknownRequest type _ payload =>
    (type.toNat == 0 || decide (0x17 < type.toNat)) && decide (payload.length ≤ maxPayload)
  | .profileLoad _ _ profile => decide (11 + 8 * profile.parties.length ≤ maxPayload)
  | .cadenceLoad _ _ bursts => decide (2 + 2 * bursts.length ≤ maxPayload)
  | .powerOnReset _ _ _ => true
  | .sampleArrival _ | .scanFault _ | .faultRecovery _ | .seizure _ | .idWindowEnd _ | .trip _ | .digit _
  | .clear _ | .callerHangUp _ | .revertCleared _ | .receiverReturn _ | .started _ => true
  | .ready _ | .readyLost _ | .overload _ | .govlWithdrawn _ => true
  | .stormAssertion | .stormDeassertion | .characterTimeout => true
  | .profileRead _ _ _ | .profileClear _ _ | .cadenceRead _ _ | .ring _ _ _ _ | .generalRing _ _ _ => true
  | .cancel _ _ | .release _ _ | .block _ _ | .unblock _ _ | .revert _ _ _ | .jobRead _ _ | .phaseRead _ _ => true
  | .generatorSet _ _ _ | .generatorReset _ _ | .hold _ _ | .resume _ | .maskSet _ _ | .summaryRead _ => true
  | .summaryAck _ _ _ | .lineStatus _ _ | .softReset _ | .characterArrival _ _ => true

end Sys2Proof
end

