-- ==== Sys2Proof/Certificates/Slice0/Obligations.lean ====
section
/-! DEFINITION. The statements about the PL16, for the provers. Where a statement gives a next state by an operation of the
model (`updateLeaky`, `post`, `enterIdle`, `endJob`, `arbitrate` and so on), another statement says what that operation
does. -/

open Sys2Proof Sys2Proof.Machine

/-! ## Steps, reset and invariants -/

/-- The command at the front of the queue is taken with the queue's rest; on an empty queue the part idles. The queue is
the model's own (log 1). -/
def Obligations.StepTakesFrontCommand : Prop :=
  ∀ (c : Instr) (rest : List Instr) (s : State),
    step { s with pending := c :: rest } = exec c { s with pending := rest } ∧
    step { s with pending := [] } = .next { s with pending := [] }

/-- POWER_ON_RESET: what every block holds after it (R4, R8, R23 to R26, R42, R43, R71, R91, R112, R113, R119, R142, R156,
R164, R165, R175). The model's own choices in it: the levels of GRDY and GOVL, inputs of the part, stand (log 14), no
frame is under way (log 23), the whole reset, with the first read of STORM, is one step that keeps the waiting commands
(log 27), and line circuit 0 is commanded DENIED in the first exchange (log 4). -/
def Obligations.PowerOnResetSetsEveryBlock : Prop :=
  ∀ (rate1 rate0 storm : Bool) (s : State), ∃ t,
    exec (.powerOnReset rate1 rate0 storm) s = .next t ∧
    (∀ n, t.line n =
      { active := none, staged := none, lastGood := { loop := 0, tip := 0, ring := 0 }, present := false,
        missCount := 0, goodCount := 0, state := .unconfigured, baseline := 0, leaky := false, applied := none,
        hook := { offHook := false, disagreement := 0, breakCount := 0, makeCount := 0, pulseCount := 0 },
        blanking := 0, tripScore := 0,
        window := { phase := .none, kind := none, arrivals := 0, tipSum := 0, ringSum := 0 },
        seizeResult := none, park := none, revert := none, answered := none }) ∧
    t.cadence.toList =
      [[⟨0, 6⟩], [⟨0, 2⟩, ⟨4, 2⟩], [⟨0, 5⟩, ⟨7, 2⟩], [⟨0, 2⟩, ⟨4, 5⟩], [⟨0, 2⟩, ⟨3, 2⟩, ⟨6, 2⟩], [⟨0, 5⟩, ⟨7, 5⟩],
       [⟨0, 12⟩], [⟨0, 2⟩]] ∧
    (∀ id, t.job id = none) ∧ t.sched.queue = [] ∧ t.sched.placements = [] ∧ (∀ c k, t.cell c k = 0) ∧
    t.sched.arrivalCounter = 0 ∧ t.sched.placementCounter = 0 ∧ t.sched.position = 0 ∧
    (∀ c, t.channel c =
      { state := .absent, nominal := 0, derate := 0, recovery := 0, overloadMark := false, idleCount := 0,
        startTimer := none, grdy := (s.channel c).grdy, govl := (s.channel c).govl, entryMark := false }) ∧
    t.hold =
      (if storm then { state := .held, mode := some .now, cause := some .storm, storm := true }
       else { state := .running, mode := none, cause := none, storm := false }) ∧
    t.scan.position = 0 ∧ t.scan.stormDue = false ∧ t.scan.word = commandWord 0 (t.line 0) ∧
    (∀ n, commandWord n (t.line n) = BitVec.ofNat 4 n.val ++ (0b11#2 ++ 0#10)) ∧
    t.port.rate =
      (match rate1, rate0 with
       | false, false => .r9600 | false, true => .r19200 | true, false => .r38400 | true, true => .r57600) ∧
    t.port.receiver = .hunt ∧ t.port.requests = [] ∧ t.port.busy = [] ∧ t.port.reply = none ∧
    t.port.transmitter = none ∧ t.port.indications = [] ∧ t.port.masks = 0x1F#8 ∧
    (∀ n, t.port.lineFlags.get n = 0#4) ∧ t.port.partFlags = 0#2 ∧ t.port.overrun = false ∧
    t.port.startUp = some .power ∧ t.pending = s.pending

/-- The invariants of the blocks, of the round and of the ring plan hold right after a power-on reset. -/
def Obligations.InvariantsHoldAtReset : Prop :=
  State.reset.BlocksInv ∧ State.reset.scan.Inv ∧ State.reset.RingPlanInv ∧
  ∀ (rate1 rate0 storm : Bool) (channels : Vector Channel 4),
    (State.powerOn rate1 rate0 storm channels).BlocksInv ∧ (State.powerOn rate1 rate0 storm channels).scan.Inv ∧
    (State.powerOn rate1 rate0 storm channels).RingPlanInv

/-- Every step keeps the hold record as R157 gives it, with the state HELD while the storm flag is set (R160), every
channel record within R143, and the read of STORM at the start of the round, before line circuit 0 (R160). -/
def Obligations.EveryStepKeepsHoldAndChannels : Prop :=
  (∀ s t : State, s.hold.Inv → step s = .next t → t.hold.Inv) ∧
  (∀ s t : State, (∀ c, (s.channel c).Inv) → step s = .next t → ∀ c, (t.channel c).Inv) ∧
  (∀ s t : State, s.scan.Inv → step s = .next t → t.scan.Inv)

/-- Every step keeps every line's record within its ranges, with what a state does not have absent. -/
def Obligations.EveryStepKeepsLineRecords : Prop :=
  ∀ s t : State, (∀ n, (s.line n).Inv) → step s = .next t → ∀ n, (t.line n).Inv

/-- Every step keeps the buffers of the Message Port within their sizes and the transmitter at the first of what is
present. -/
def Obligations.EveryStepKeepsMessagePort : Prop :=
  ∀ s t : State, s.port.Inv → step s = .next t → t.port.Inv

/-- Every step keeps the ring plan: the Job Table, the Ring Request Queue, the placement list, the cells within E(c), the
applied codes and the revert contexts. -/
def Obligations.EveryStepKeepsRingPlan : Prop :=
  ∀ s t : State, s.BlocksInv → s.RingPlanInv → step s = .next t → t.RingPlanInv

/-! ## The link -/

/-- A frame laid out by R166 has a count of type, tag and payload, and its bytes after the marker sum to 0 mod 256. It joins
the request buffer, or, with four requests buffered, leaves its type and tag in the BUSY list; dispatch and the transmitter
follow (R167 to R170). A frame whose sum is not 0 is discarded. -/
def Obligations.FrameIsTakenOrDiscarded : Prop :=
  (∀ (type tag : Byte) (payload : List Byte), payload.length ≤ 248 →
    ∃ check : Byte,
      frameOf type tag payload = 0xA5#8 :: toByte (payload.length + 2) :: type :: tag :: (payload ++ [check]) ∧
      byteSum (toByte (payload.length + 2) :: type :: tag :: (payload ++ [check])) = 0#8 ∧
      Frame.wf (frameOf type tag payload) = true) ∧
  (∀ s : State, s.port.receiver = .hunt → s.port.busy.length < 4 →
      (∀ (type tag : Byte) (payload : List Byte), payload.length ≤ 248 →
        exec (.frameReceived (frameOf type tag payload)) s = .next
          (State.arbitrate (State.dispatch
            (if s.port.requests.length < 4 then
              { s with port := { s.port with
                  requests := s.port.requests ++ [{ type := type, tag := tag, payload := payload, marked := false }] } }
            else { s with port := { s.port with busy := s.port.busy ++ [{ type := type, tag := tag }] } })))) ∧
      (∀ (count : Byte) (rest : List Byte), 2 ≤ count.toNat → count.toNat ≤ 250 → rest.length = count.toNat + 1 →
        byteSum (count :: rest) ≠ 0#8 →
        exec (.frameReceived (0xA5#8 :: count :: rest)) s = .next s))

/-- The receiver at each character, by its condition (R167, R168), and at the timeout. The character that completes a frame
takes the receiver back to HUNT; where the sum is 0 the frame joins the request buffer, or with four requests buffered the
BUSY list, and dispatch and the transmitter follow; otherwise it is discarded. That a marker's stop bit is not examined in
HUNT is the model's reading (log 11). -/
def Obligations.ReceiverTakesEachCharacter : Prop :=
  ∀ (s : State) (b : Byte) (stop : Bool),
    exec .characterTimeout s = .next { s with port := { s.port with receiver := .hunt } } ∧
    match s.port.receiver with
    | .hunt =>
      exec (.characterArrival b stop) s = .next
        (if b = 0xA5#8 ∧ s.port.busy.length < 4 then { s with port := { s.port with receiver := .count } } else s)
    | .count =>
      exec (.characterArrival b stop) s = .next
        { s with port := { s.port with
            receiver := if stop = true ∧ 2 ≤ b.toNat ∧ b.toNat ≤ 250 then .body b [] else .hunt } }
    | .body n collected =>
      (stop = false →
        exec (.characterArrival b stop) s = .next { s with port := { s.port with receiver := .hunt } }) ∧
      (stop = true → collected.length < n.toNat →
        exec (.characterArrival b stop) s = .next
          { s with port := { s.port with receiver := .body n (collected ++ [b]) } }) ∧
      (stop = true → n.toNat ≤ collected.length → byteSum (n :: (collected ++ [b])) ≠ 0#8 →
        exec (.characterArrival b stop) s = .next { s with port := { s.port with receiver := .hunt } }) ∧
      (stop = true → n.toNat ≤ collected.length → byteSum (n :: (collected ++ [b])) = 0#8 →
        ∀ type tag payload, collected = type :: tag :: payload →
        exec (.characterArrival b stop) s = .next
          (State.arbitrate (State.dispatch
            (if s.port.requests.length < 4 then
              { s with port := { s.port with
                  receiver := .hunt
                  requests := s.port.requests ++ [{ type := type, tag := tag, payload := payload, marked := false }] } }
            else
              { s with port := { s.port with
                  receiver := .hunt, busy := s.port.busy ++ [{ type := type, tag := tag }] } }))))

/-- A frame has been sent: its source is freed, the next request is dispatched and the next frame begun (R169, R170), and
an overrun is noticed when the queue is left empty (R174). That the dispatch comes before the next frame is begun is the
model's choice (log 28). The dispatch does nothing while the reply slot is taken or the buffer empty; otherwise the oldest
request leaves the buffer, and its reply fills the slot: NOT_READY where it is marked (R176), else the answer, with all its
effects, that its frame has where it comes alone over a link at rest, whatever else the port holds (R169). -/
def Obligations.TransmissionFreesItsSource : Prop :=
  (∀ (s : State) (lines : List LineNo) (frame : List Byte),
    (s.port.transmitter = none → exec (.transmissionComplete lines) s = .next s) ∧
    (s.port.transmitter = some { source := .busy, frame := frame } →
      exec (.transmissionComplete lines) s = .next
        (State.arbitrate (State.dispatch
          { s with port := { s.port with transmitter := none, busy := s.port.busy.tail } }))) ∧
    (∀ r, s.port.reply = some r → s.port.transmitter = some { source := .reply, frame := frame } →
      ¬ (r.type = 0x17#8 ∧ r.status = .ok) →
      exec (.transmissionComplete lines) s = .next
        (State.arbitrate (State.dispatch { s with port := { s.port with transmitter := none, reply := none } }))) ∧
    (∀ sent rest, s.port.indications = sent :: rest →
      s.port.transmitter = some { source := .indication, frame := frame } → (rest ≠ [] ∨ s.port.overrun = false) →
      exec (.transmissionComplete lines) s = .next
        (State.arbitrate (State.dispatch
          { s with port := { s.port with transmitter := none, indications := rest } }))) ∧
    (∀ sent, s.port.indications = [sent] →
      s.port.transmitter = some { source := .indication, frame := frame } → s.port.overrun = true →
      ∃ flagged : BitVec 16,
        (∀ n : LineNo, flagged.getLsbD n.val = decide (s.port.lineFlags.get n ≠ 0#4)) ∧
        exec (.transmissionComplete lines) s = .next
          (State.arbitrate (State.dispatch
            { s with port := { s.port with
                transmitter := none, overrun := false,
                indications := [.overrunNotice flagged s.port.partFlags] } })))) ∧
  (∀ s : State,
    (s.port.reply ≠ none ∨ s.port.requests = [] → s.dispatch = s) ∧
    ∀ r rest, s.port.reply = none → s.port.requests = r :: rest →
      (r.marked = true →
        s.dispatch =
          { s with port := { s.port with
              requests := rest
              reply := some { type := r.type, tag := r.tag, status := .notReady, body := [] } } }) ∧
      (r.marked = false → r.payload.length ≤ 248 →
        ∃ u : State,
          exec (.frameReceived (frameOf r.type r.tag r.payload))
              { s with port := { s.port with receiver := .hunt, requests := [], busy := [] } } = .next u ∧
          s.dispatch =
            { u with port := { u.port with
                receiver := s.port.receiver, requests := rest, busy := s.port.busy,
                transmitter := s.port.transmitter } }))

/-- The free transmitter begins the oldest BUSY reply, else the reply, else the indication at the head of the queue, and a
frame under way is sent to its end (R170). The indications are laid out by R178, types 40h to 4Ch, absent fields FFh. That
the four bytes after an absent ID result are free values is log 12; that match flag, storm flag and signal levels are sent
as 1 where set or asserted and 0 otherwise is log 22; that bits 2 to 7 of the part flags are sent as 0 is log 29. -/
def Obligations.TransmitterTakesFirstPresent : Prop :=
  (∀ s : State,
    (s.port.transmitter ≠ none → s.arbitrate = s) ∧
    (s.port.transmitter = none →
      (∀ e rest, s.port.busy = e :: rest →
        s.arbitrate = s.send .busy (frameOf (e.type + 0x80#8) e.tag [0x02#8])) ∧
      (s.port.busy = [] → ∀ r, s.port.reply = some r →
        s.arbitrate = s.send .reply (frameOf (r.type + 0x80#8) r.tag (toByte r.status.ctorIdx :: r.body))) ∧
      (s.port.busy = [] → s.port.reply = none → ∀ i rest, s.port.indications = i :: rest →
        s.arbitrate = { s with freeCount := s.freeCount + i.free }.send .indication
          (frameOf (toByte (0x40 + i.ctorIdx)) 0#8 (i.bytes s.freeCount))) ∧
      (s.port.busy = [] → s.port.reply = none → s.port.indications = [] → s.arbitrate = s))) ∧
  (∀ (i : Indication) (free : Nat),
    let laidOut (type : Byte) (payload : List Byte) : Prop :=
      toByte (0x40 + i.ctorIdx) = type ∧ i.bytes free = payload
    let flag (b : Bool) : Byte := if b then 1#8 else 0#8
    let field (v : Option Nat) : Byte := match v with | some n => toByte n | none => 0xFF#8
    let two (n : Nat) : List Byte := [toByte n, toByte (n / 256)]
    let result (r : IdResult) : List Byte :=
      [toByte r.outcome.ctorIdx, field (r.digit.map Fin.val), toByte r.candidates, toByte r.tipAverage,
        toByte r.ringAverage]
    match i with
    | .seize n r => laidOut 0x40#8 (toByte n.val :: result r)
    | .digit n d pulses error => laidOut 0x41#8 [toByte n.val, field (d.map Fin.val), toByte pulses, flag error]
    | .clear n left => laidOut 0x42#8 [toByte n.val, toByte left.ctorIdx]
    | .answer a n r matched =>
      laidOut 0x43#8
        ([toByte a.job.val, toByte n.val, toByte a.kind.ctorIdx, field (a.target.map Fin.val)] ++ result r ++
          [flag matched])
    | .jobEnd id n kind cause rung remaining =>
      laidOut 0x44#8
        [toByte id.val, toByte n.val, toByte kind.ctorIdx, toByte cause.ctorIdx, toByte rung, toByte remaining]
    | .revertEvent r =>
      ∃ w x y z : Byte,
        laidOut 0x45#8
          ([toByte r.line.val, toByte r.event.ctorIdx, toByte r.caller.val, toByte r.called.val, flag r.ringBack,
              toByte r.retries, field (r.cause.map EndCause.ctorIdx), field (r.job.map Fin.val), field r.rung,
              field r.remaining] ++
            (match r.result with | some found => result found | none => [0xFF#8, w, x, y, z]) ++
            [match r.matched with | some b => flag b | none => 0xFF#8] ++
            (match r.duration with | some seconds => two seconds | none => [0xFF#8, 0xFF#8]))
    | .generatorEvent c state derate cause =>
      laidOut 0x46#8 [toByte (c.val + 1), toByte state.ctorIdx, toByte derate, toByte cause.ctorIdx]
    | .lineFault n cause left => laidOut 0x47#8 [toByte n.val, toByte cause.ctorIdx, toByte left.ctorIdx]
    | .lineRecovered n left => laidOut 0x48#8 [toByte n.val, toByte left.ctorIdx]
    | .leakChange n leaky leakage => laidOut 0x49#8 [toByte n.val, flag leaky, toByte leakage]
    | .holdEvent h =>
      laidOut 0x4A#8
        [toByte h.state.ctorIdx, field (h.mode.map HoldMode.ctorIdx), field (h.cause.map HoldCause.ctorIdx),
          flag h.storm]
    | .started cause presence channels hold storm =>
      laidOut 0x4B#8
        (toByte cause.ctorIdx :: two presence.toNat ++
          (channels.flatMap fun c => [toByte c.state.ctorIdx, flag c.grdy, flag c.govl]) ++
          [toByte hold.ctorIdx, flag storm])
    | .overrunNotice lines part => laidOut 0x4C#8 (two lines.toNat ++ [toByte part.toNat]))

/-- A posting sets the summary flag of its class, then is masked, dropped with the overrun flag set, or queued (R171). -/
def Obligations.PostingFlagsThenQueues : Prop :=
  ∀ (s : State) (i : Indication),
    let t := s.post i
    let flagged (n : LineNo) (bit : Nat) : Prop :=
      (∀ m, t.port.lineFlags.get m = s.port.lineFlags.get m ||| (if m = n then BitVec.ofNat 4 (2 ^ bit) else 0#4)) ∧
      t.port.partFlags = s.port.partFlags
    let partFlagged (bit : Nat) : Prop :=
      (∀ m, t.port.lineFlags.get m = s.port.lineFlags.get m) ∧
      t.port.partFlags = s.port.partFlags ||| BitVec.ofNat 2 (2 ^ bit)
    let queued (masked : Bool) : Prop :=
      if masked then t.port.indications = s.port.indications ∧ t.port.overrun = s.port.overrun
      else if s.port.indications.length < 32 then
        t.port.indications = s.port.indications ++ [i] ∧ t.port.overrun = s.port.overrun
      else t.port.indications = s.port.indications ∧ t.port.overrun = true
    (match i with
     | .seize n _ | .digit n _ _ _ | .clear n _ => flagged n 0 ∧ queued (s.port.masks.getLsbD 0)
     | .answer _ n _ _ | .jobEnd _ n _ _ _ _ => flagged n 1 ∧ queued (s.port.masks.getLsbD 1)
     | .revertEvent r => flagged r.line 2 ∧ queued (s.port.masks.getLsbD 2)
     | .lineFault n _ _ | .lineRecovered n _ | .leakChange n _ _ => flagged n 3 ∧ queued (s.port.masks.getLsbD 3)
     | .generatorEvent _ _ _ _ => partFlagged 0 ∧ queued (s.port.masks.getLsbD 3)
     | .holdEvent _ => partFlagged 1 ∧ queued (s.port.masks.getLsbD 4)
     | .started _ _ _ _ _ | .overrunNotice _ _ =>
       (∀ m, t.port.lineFlags.get m = s.port.lineFlags.get m) ∧ t.port.partFlags = s.port.partFlags ∧ queued false) ∧
    t = { s with port := { s.port with
            lineFlags := t.port.lineFlags, partFlags := t.port.partFlags, indications := t.port.indications,
            overrun := t.port.overrun } }

/-- A request with a payload within a frame that the part does not know, sent over a link at rest, is answered
UNKNOWN_REQUEST, and one sent in the start-up state NOT_READY (R169, R175). A buffered request that a soft reset has marked
is answered NOT_READY at its dispatch, also after the start-up state has ended (R176); that this reply goes before the
indications that wait is the model's choice (log 28). A known request is answered
BAD_LENGTH where its payload has not the length of R178, else BAD_ARGUMENT where an argument is out of range (R11, R169,
R178). Nothing else changes. The row of a request is the arrival of its frame (log 10). -/
def Obligations.UnknownAndEarlyRequestsAreRefused : Prop :=
  (∀ (s : State) (type tag : Byte) (payload : List Byte), payload.length ≤ 248 →
      s.port.receiver = .hunt → s.port.requests = [] → s.port.busy = [] → s.port.reply = none →
      (s.port.startUp = none → (type.toNat = 0 ∨ 0x17 < type.toNat) →
        exec (.unknownRequest type tag payload) s = .next (s.replied type tag .unknownRequest)) ∧
      (s.port.startUp ≠ none →
        exec (.unknownRequest type tag payload) s = .next (s.replied type tag .notReady) ∧
        exec (.frameReceived (frameOf type tag payload)) s = .next (s.replied type tag .notReady))) ∧
  (∀ (s : State) (lines : List LineNo) (frame : List Byte) (sent : Reply) (r : Request) (rest : List Request),
      s.port.transmitter = some { source := .reply, frame := frame } → s.port.reply = some sent →
      ¬ (sent.type = 0x17#8 ∧ sent.status = .ok) → s.port.busy = [] → s.port.requests = r :: rest → r.marked = true →
      exec (.transmissionComplete lines) s = .next
        (State.replied { s with port := { s.port with requests := rest, reply := none, transmitter := none } }
          r.type r.tag .notReady)) ∧
  (∀ (s : State) (type tag : Byte) (payload : List Byte), s.LinkReady → payload.length ≤ 248 →
      1 ≤ type.toNat → type.toNat ≤ 0x17 →
      let byte (k : Nat) : Nat := (payload.getD k 0#8).toNat
      let lengthAsLaidOut : Prop :=
        match type.toNat with
        | 0x01 => 11 ≤ payload.length ∧ payload.length = 11 + 8 * byte 10
        | 0x04 => 2 ≤ payload.length ∧ payload.length = 2 + 2 * byte 1
        | 0x06 => payload.length = 3
        | 0x02 | 0x07 | 0x09 | 0x0F | 0x15 => payload.length = 2
        | 0x12 | 0x14 | 0x17 => payload.length = 0
        | _ => payload.length = 1
      let inRange : Prop :=
        match type.toNat with
        | 0x01 => byte 0 ≤ 15 ∧ ∀ party, party < byte 10 → byte (11 + 8 * party) ≤ 9
        | 0x02 => byte 0 ≤ 15 ∧ byte 1 ≤ 1
        | 0x03 | 0x08 | 0x0A | 0x0B | 0x0C | 0x16 => byte 0 ≤ 15
        | 0x04 | 0x05 => byte 0 ≤ 7
        | 0x06 => byte 0 ≤ 15 ∧ byte 1 ≤ 9 ∧ byte 2 ≤ 40
        | 0x07 => byte 0 ≤ 15 ∧ byte 1 ≤ 40
        | 0x09 => byte 0 ≤ 15 ∧ byte 1 ≤ 9
        | 0x0D | 0x13 => byte 0 ≤ 31
        | 0x0E | 0x10 => 1 ≤ byte 0 ∧ byte 0 ≤ 4
        | 0x0F => 1 ≤ byte 0 ∧ byte 0 ≤ 4 ∧ byte 1 ≤ 60
        | 0x11 => byte 0 ≤ 1
        | 0x15 => byte 0 ≤ 15 ∧ byte 1 ≤ 15 ∨ byte 0 = 16 ∧ byte 1 ≤ 3
        | _ => True
      (¬ lengthAsLaidOut →
        exec (.frameReceived (frameOf type tag payload)) s = .next (s.replied type tag .badLength)) ∧
      (lengthAsLaidOut → ¬ inRange →
        exec (.frameReceived (frameOf type tag payload)) s = .next (s.replied type tag .badArgument))) ∧
  (∀ (s : State) (tag a b c : Byte) (profile : RawProfile) (bursts : List (Byte × Byte)),
      let sends (row : Instr) (type : Byte) (payload : List Byte) : Prop :=
        exec row s = exec (.frameReceived (frameOf type tag payload)) s
      sends (.profileLoad tag a profile) 0x01#8 (a :: profile.bytes) ∧ sends (.profileRead tag a b) 0x02#8 [a, b] ∧
      sends (.profileClear tag a) 0x03#8 [a] ∧
      sends (.cadenceLoad tag a bursts) 0x04#8 (a :: toByte bursts.length :: burstBytes bursts) ∧
      sends (.cadenceRead tag a) 0x05#8 [a] ∧ sends (.ring tag a b c) 0x06#8 [a, b, c] ∧
      sends (.generalRing tag a b) 0x07#8 [a, b] ∧ sends (.cancel tag a) 0x08#8 [a] ∧
      sends (.revert tag a b) 0x09#8 [a, b] ∧ sends (.release tag a) 0x0A#8 [a] ∧ sends (.block tag a) 0x0B#8 [a] ∧
      sends (.unblock tag a) 0x0C#8 [a] ∧ sends (.jobRead tag a) 0x0D#8 [a] ∧ sends (.phaseRead tag a) 0x0E#8 [a] ∧
      sends (.generatorSet tag a b) 0x0F#8 [a, b] ∧ sends (.generatorReset tag a) 0x10#8 [a] ∧
      sends (.hold tag a) 0x11#8 [a] ∧ sends (.resume tag) 0x12#8 [] ∧ sends (.maskSet tag a) 0x13#8 [a] ∧
      sends (.summaryRead tag) 0x14#8 [] ∧ sends (.summaryAck tag a b) 0x15#8 [a, b] ∧
      sends (.lineStatus tag a) 0x16#8 [a] ∧ sends (.softReset tag) 0x17#8 [])

/-- Every request with its arguments in range is read from its payload as the host laid it out (R178), whatever the
arguments: no bit of a payload is dropped. The layouts themselves (R166, R178): multi-byte numbers low byte first, flags
(those that R178 does not number: log 22), absent fields, pairs of a burst list, error lists, party entries and profiles,
as offered and as kept, and the enumerations from 0 in the order of R178. -/
def Obligations.PayloadsAreReadAsLaidOut : Prop :=
  (∀ n : Nat,
    (toByte n).toNat = n % 256 ∧ le16 n = [toByte n, toByte (n / 256)] ∧
    le32 n = [toByte n, toByte (n / 256), toByte (n / 65536), toByte (n / 16777216)] ∧
    orAbsent (some n) = toByte n) ∧
  orAbsent none = 0xFF#8 ∧ flagByte false = 0#8 ∧ flagByte true = 1#8 ∧
  (∀ bursts : List (Byte × Byte), burstBytes bursts = bursts.flatMap fun b => [b.1, b.2]) ∧
  (∀ entries : List (Nat × Nat),
    errorBytes entries =
      toByte entries.length :: entries.flatMap fun e => [toByte e.1, toByte e.2, toByte (e.2 / 256)]) ∧
  (∀ p : RawProfile,
    p.bytes =
      [toByte p.resistance.toNat, toByte (p.resistance.toNat / 256), p.hookMargin, p.leakLimit, p.clearTime,
          p.ringTimeout, p.revertWait, toByte p.parkTime.toNat, toByte (p.parkTime.toNat / 256),
          toByte p.parties.length] ++
        p.parties.flatMap fun q =>
          [q.digit, q.channel, q.side, q.pattern, q.load, q.idSide, q.idNominal, q.revertPermitted]) ∧
  (∀ p : Profile,
    p.bytes =
      [toByte p.resistance, toByte (p.resistance / 256), toByte p.hookMargin, toByte p.leakLimit, toByte p.clearTime,
          toByte p.ringTimeout, toByte p.revertWait, toByte p.parkTime, toByte (p.parkTime / 256),
          toByte p.parties.length] ++
        p.parties.flatMap fun q =>
          [toByte q.digit.val, toByte (q.code.chan.val + 1), if q.code.side = .tip then 0#8 else 1#8,
            toByte q.code.pattern.val, toByte q.load,
            match q.idSide with | .tip => 0#8 | .ring => 1#8 | .none => 2#8,
            match q.idNominal with | some nominal => toByte nominal | none => 0#8,
            if q.revertPermitted then 1#8 else 0#8]) ∧
  [Status.ok, .pending, .busy, .notReady, .unknownRequest, .badLength, .badArgument, .noProfile, .profileInvalid,
      .cadenceInvalid, .inUse, .lineBusy, .lineBlocked, .lineFault, .noParty, .noGenerator, .loadExceeds, .noJob, .tooLate,
      .callerUnknown, .sameParty, .notPermitted, .stormActive, .wrongState].map Status.ctorIdx = List.range 24 ∧
  [LineState.unconfigured, .idle, .seizeId, .seized, .ringing, .answerId, .talk, .revertWait, .revertTalk, .linger,
      .lockout, .blocked, .fault].map LineState.ctorIdx = List.range 13 ∧
  [Side.tip, .ring].map Side.ctorIdx = List.range 2 ∧ [IdSide.tip, .ring, .none].map IdSide.ctorIdx = List.range 3 ∧
  [IdOutcome.party, .unknown, .ambiguous].map IdOutcome.ctorIdx = List.range 3 ∧
  [JobKind.call, .general, .revert].map JobKind.ctorIdx = List.range 3 ∧
  [EndCause.answered, .noAnswer, .cancelled, .noCapacity, .genFailed, .lineFault, .blocked, .preempted, .callerReturned,
      .retriesExhausted, .cleared, .released, .callerStayed].map EndCause.ctorIdx = List.range 13 ∧
  [RevertEventKind.ringing, .callerReturned, .answered, .abandoned, .ended].map RevertEventKind.ctorIdx =
    List.range 5 ∧
  [ChannelState.absent, .off, .starting, .running, .failed].map ChannelState.ctorIdx = List.range 5 ∧
  [GeneratorCause.request, .start, .ready, .startTimeout, .overload, .readyLost, .recovery, .idleStop].map
    GeneratorCause.ctorIdx = List.range 8 ∧
  [HoldState.running, .holdPending, .held, .resuming].map HoldState.ctorIdx = List.range 4 ∧
  [HoldMode.now, .endOfBurst].map HoldMode.ctorIdx = List.range 2 ∧
  [HoldCause.request, .storm].map HoldCause.ctorIdx = List.range 2 ∧
  [LineFaultCause.scan, .permanentLoop].map LineFaultCause.ctorIdx = List.range 2 ∧
  [StartCause.power, .soft].map StartCause.ctorIdx = List.range 2 ∧
  [ProfileCheck.partyCount, .dupDigit, .badChannel, .badPattern, .badSide, .loadRange, .codeLoad, .codeClash, .idRange,
      .idOverlap, .resistRange, .marginRange, .leakRange, .timerRange].map ProfileCheck.ctorIdx = List.range 14 ∧
  [CadenceCheck.burstCount, .burstLength, .burstEnd, .burstOrder, .onTotal, .noGap].map CadenceCheck.ctorIdx =
    List.range 6 ∧
  (∀ (n : LineNo) (p : RawProfile), (∀ q ∈ p.parties, q.digit.toNat ≤ 9) → p.parties.length < 256 →
    readRequest 0x01#8 (toByte n.val :: p.bytes) = .ok (.profileLoad n p)) ∧
  (∀ (n : LineNo) (pending : Bool),
    readRequest 0x02#8 [toByte n.val, flagByte pending] = .ok (.profileRead n pending)) ∧
  (∀ (p : PatternNo) (bursts : List (Byte × Byte)), bursts.length < 256 →
    readRequest 0x04#8 (toByte p.val :: toByte bursts.length :: burstBytes bursts) =
      .ok (.cadenceLoad p (bursts.map fun b => { start := b.1.toNat, length := b.2.toNat }))) ∧
  (∀ p : PatternNo, readRequest 0x05#8 [toByte p.val] = .ok (.cadenceRead p)) ∧
  (∀ (n : LineNo) (d : Digit) (cycles : Nat), cycles ≤ 40 →
    readRequest 0x06#8 [toByte n.val, toByte d.val, toByte cycles] = .ok (.ring n d cycles) ∧
    readRequest 0x07#8 [toByte n.val, toByte cycles] = .ok (.generalRing n cycles) ∧
    readRequest 0x09#8 [toByte n.val, toByte d.val] = .ok (.revert n d)) ∧
  (∀ n : LineNo,
    readRequest 0x03#8 [toByte n.val] = .ok (.profileClear n) ∧ readRequest 0x08#8 [toByte n.val] = .ok (.cancel n) ∧
    readRequest 0x0A#8 [toByte n.val] = .ok (.release n) ∧ readRequest 0x0B#8 [toByte n.val] = .ok (.block n) ∧
    readRequest 0x0C#8 [toByte n.val] = .ok (.unblock n) ∧ readRequest 0x16#8 [toByte n.val] = .ok (.lineStatus n)) ∧
  (∀ id : JobId, readRequest 0x0D#8 [toByte id.val] = .ok (.jobRead id)) ∧
  (∀ (c : Chan) (nominal : Nat), nominal ≤ 60 →
    readRequest 0x0E#8 [toByte (c.val + 1)] = .ok (.phaseRead c) ∧
    readRequest 0x0F#8 [toByte (c.val + 1), toByte nominal] = .ok (.generatorSet c nominal) ∧
    readRequest 0x10#8 [toByte (c.val + 1)] = .ok (.generatorReset c)) ∧
  (∀ mode : HoldMode, readRequest 0x11#8 [toByte mode.ctorIdx] = .ok (.hold mode)) ∧
  (∀ masks : Byte, masks.toNat < 32 → readRequest 0x13#8 [masks] = .ok (.maskSet masks)) ∧
  (∀ (n : LineNo) (classes : BitVec 4),
    readRequest 0x15#8 [toByte n.val, classes.setWidth 8] = .ok (.summaryAckLine n classes)) ∧
  (∀ classes : BitVec 2, readRequest 0x15#8 [16#8, classes.setWidth 8] = .ok (.summaryAckPart classes)) ∧
  readRequest 0x12#8 [] = .ok .resume ∧ readRequest 0x14#8 [] = .ok .summaryRead ∧
  readRequest 0x17#8 [] = .ok .softReset

/-! ## The Profile Store -/

/-- PROFILE_LOAD by the state of the line (R16): active at once in UNCONFIGURED, IDLE and BLOCKED, pending in the others;
an offered profile with errors is refused with its error list and changes nothing (R11). The bytes of the list are spelled
in `PayloadsAreReadAsLaidOut`. That bits 1 to 7 of the reply's flags byte are sent as 0 is the model's choice (log 29). -/
def Obligations.ProfileLoadIsStagedOrRefused : Prop :=
  ∀ (s : State) (tag : Byte) (n : LineNo) (p : RawProfile), s.LinkReady →
    p.parties.length ≤ 29 → (∀ q ∈ p.parties, q.digit.toNat ≤ 9) →
    (profileErrors p ≠ [] →
      exec (.profileLoad tag (toByte n.val) p) s = .next
        (s.replied 0x01#8 tag .profileInvalid
          (errorBytes ((profileErrors p).map fun e => (e.check.ctorIdx, e.item))))) ∧
    (profileErrors p = [] →
      let l := s.line n
      let replaced : List Byte := [if l.staged.isSome then 1#8 else 0#8]
      match l.state with
      | .unconfigured =>
        exec (.profileLoad tag (toByte n.val) p) s = .next
          (((s.setLine n { l with active := some p.keep }).enterIdle n).replied 0x01#8 tag .ok [0#8])
      | .idle =>
        exec (.profileLoad tag (toByte n.val) p) s = .next
          (((s.setLine n { l with active := some p.keep }).updateLeaky n).replied 0x01#8 tag .ok [0#8])
      | .blocked =>
        exec (.profileLoad tag (toByte n.val) p) s = .next
          (((s.setLine n { l with active := some p.keep, staged := none }).updateLeaky n).replied 0x01#8 tag .ok
            replaced)
      | .seizeId | .seized | .ringing | .answerId | .talk | .revertWait | .revertTalk | .linger | .lockout | .fault =>
        exec (.profileLoad tag (toByte n.val) p) s = .next
          ((s.setLine n { l with staged := some p.keep }).replied 0x01#8 tag .pending replaced))

/-- A profile with an empty error list is a valid profile, field by field (R9 to R15), and is read back as it was loaded,
with the revert permitted field as 0 or 1 (R19), in the layout that `PayloadsAreReadAsLaidOut` spells. -/
def Obligations.AcceptedProfileIsValid : Prop :=
  ∀ p : RawProfile, (∀ q ∈ p.parties, q.digit.toNat ≤ 9) → profileErrors p = [] →
    p.keep.Valid ∧
    p.keep.resistance = p.resistance.toNat ∧ p.keep.hookMargin = p.hookMargin.toNat ∧
    p.keep.leakLimit = p.leakLimit.toNat ∧ p.keep.clearTime = p.clearTime.toNat ∧
    p.keep.ringTimeout = p.ringTimeout.toNat ∧ p.keep.revertWait = p.revertWait.toNat ∧
    p.keep.parkTime = p.parkTime.toNat ∧
    p.keep.parties.map Party.digit = p.parties.map (fun q => Fin.ofNat 10 q.digit.toNat) ∧
    p.keep.bytes =
      RawProfile.bytes
        { p with parties := p.parties.map fun q =>
            { q with revertPermitted := if q.revertPermitted = 0#8 then 0#8 else 1#8 } }

/-- The error list of PROFILE_LOAD (R11 to R15): every check is raised exactly where the rules raise it, a party check with
the set of positions concerned, and the entries stand in the order of R11. A party raised under BAD_CHANNEL, BAD_SIDE or
LOAD_RANGE takes no part in CODE_LOAD, one raised under BAD_CHANNEL, BAD_SIDE or BAD_PATTERN none in CODE_CLASH, and one
raised under ID_RANGE none in ID_OVERLAP; after PARTY_COUNT no party check is applied. -/
def Obligations.ProfileErrorsNameWhatIsWrong : Prop :=
  ∀ p : RawProfile,
    ((⟨.partyCount, 0⟩ ∈ profileErrors p) ↔ p.parties.length = 0 ∨ 10 < p.parties.length) ∧
    ((⟨.resistRange, 0⟩ ∈ profileErrors p) ↔ 6000 < p.resistance.toNat) ∧
    ((⟨.marginRange, 0⟩ ∈ profileErrors p) ↔ p.hookMargin.toNat < 8 ∨ 80 < p.hookMargin.toNat) ∧
    ((⟨.leakRange, 0⟩ ∈ profileErrors p) ↔ p.leakLimit.toNat < 8 ∨ 160 < p.leakLimit.toNat) ∧
    ((⟨.timerRange, 0⟩ ∈ profileErrors p) ↔ p.clearTime.toNat < 20 ∨ 200 < p.clearTime.toNat) ∧
    ((⟨.timerRange, 1⟩ ∈ profileErrors p) ↔ p.ringTimeout.toNat < 1 ∨ 40 < p.ringTimeout.toNat) ∧
    ((⟨.timerRange, 2⟩ ∈ profileErrors p) ↔ p.revertWait.toNat < 8 ∨ 120 < p.revertWait.toNat) ∧
    ((⟨.timerRange, 3⟩ ∈ profileErrors p) ↔ p.parkTime.toNat < 40 ∨ 480 < p.parkTime.toNat) ∧
    (profileErrors p).Pairwise (fun a b =>
      a.check.ctorIdx < b.check.ctorIdx ∨ a.check = .timerRange ∧ b.check = .timerRange ∧ a.item < b.item) ∧
    let concerns (check : ProfileCheck) (concerned : Nat → RawParty → Prop) : Prop :=
      ((∃ item, ⟨check, item⟩ ∈ profileErrors p) ↔
        1 ≤ p.parties.length ∧ p.parties.length ≤ 10 ∧ ∃ i q, p.parties[i]? = some q ∧ concerned i q) ∧
      ∀ item, ⟨check, item⟩ ∈ profileErrors p →
        ∀ i, item.testBit i = true ↔ ∃ q, p.parties[i]? = some q ∧ concerned i q
    let another (i : Nat) (related : RawParty → Prop) : Prop :=
      ∃ (j : Nat) (r : RawParty), j ≠ i ∧ p.parties[j]? = some r ∧ related r
    let badChannel (q : RawParty) : Bool := decide (q.channel.toNat < 1) || decide (4 < q.channel.toNat)
    let badPattern (q : RawParty) : Bool := decide (7 < q.pattern.toNat)
    let badSide (q : RawParty) : Bool := decide (1 < q.side.toNat)
    let badLoad (q : RawParty) : Bool := decide (q.load.toNat < 1) || decide (6 < q.load.toNat)
    let loads (q : RawParty) : Bool := !badChannel q && !badSide q && !badLoad q
    let codes (q : RawParty) : Bool := !badChannel q && !badSide q && !badPattern q
    let badId (q : RawParty) : Prop :=
      2 < q.idSide.toNat ∨ q.idSide.toNat ≤ 1 ∧ (q.idNominal.toNat < 8 ∨ 160 < q.idNominal.toNat) ∨
      q.idSide.toNat = 2 ∧ q.idNominal.toNat ≠ 0
    let inWindow (q : RawParty) (v : Nat) : Prop :=
      q.idNominal.toNat ≤ v + max 3 (q.idNominal.toNat / 5) ∧ v ≤ q.idNominal.toNat + max 3 (q.idNominal.toNat / 5)
    concerns .dupDigit (fun i q => another i fun r => r.digit = q.digit) ∧
    concerns .badChannel (fun _ q => badChannel q = true) ∧ concerns .badPattern (fun _ q => badPattern q = true) ∧
    concerns .badSide (fun _ q => badSide q = true) ∧ concerns .loadRange (fun _ q => badLoad q = true) ∧
    concerns .codeLoad (fun _ q =>
      loads q = true ∧
      24 < ((p.parties.filter fun r => loads r && r.channel == q.channel && r.side == q.side).map
        fun r => r.load.toNat).sum) ∧
    concerns .codeClash (fun i q =>
      codes q = true ∧
      another i fun r => codes r = true ∧ r.channel = q.channel ∧ r.side = q.side ∧ r.pattern = q.pattern) ∧
    concerns .idRange (fun _ q => badId q) ∧
    concerns .idOverlap (fun i q =>
      ¬ badId q ∧
      another i fun r =>
        ¬ badId r ∧ r.idSide = q.idSide ∧ (q.idSide.toNat = 2 ∨ ∃ v, inWindow q v ∧ inWindow r v))

/-- A party matches a window by R47, and the outcome counts the parties that match (R48). Against a valid profile a window is
never AMBIGUOUS, and the signature of any one party, drawn alone, names that party (R14). -/
def Obligations.ValidProfileNamesOneParty : Prop :=
  (∀ (q : Party) (tip ring nominal : Nat), q.idNominal = some nominal →
    let near (average : Nat) : Prop :=
      average ≤ nominal + max 3 (nominal / 5) ∧ nominal ≤ average + max 3 (nominal / 5)
    (q.idSide = .tip → (q.matches tip ring = true ↔ near tip ∧ ring ≤ 4)) ∧
    (q.idSide = .ring → (q.matches tip ring = true ↔ near ring ∧ tip ≤ 4))) ∧
  (∀ (q : Party) (tip ring : Nat), q.idSide = .none → (q.matches tip ring = true ↔ tip ≤ 4 ∧ ring ≤ 4)) ∧
  (∀ (parties : List Party) (tip ring : Nat),
    let r := classify parties tip ring
    let count := parties.countP fun q => q.matches tip ring
    r.candidates = count ∧ r.tipAverage = tip ∧ r.ringAverage = ring ∧
    (count = 0 → r.outcome = .unknown ∧ r.digit = none) ∧
    (count = 1 → r.outcome = .party ∧ ∃ q ∈ parties, q.matches tip ring = true ∧ r.digit = some q.digit) ∧
    (2 ≤ count → r.outcome = .ambiguous ∧ r.digit = none)) ∧
  (∀ p : Profile, p.Valid →
      (∀ tip ring, (classify p.parties tip ring).outcome ≠ .ambiguous ∧ (classify p.parties tip ring).candidates ≤ 1) ∧
      (∀ q ∈ p.parties,
        let tip := if q.idSide = .tip then q.idNominal.getD 0 else 0
        let ring := if q.idSide = .ring then q.idNominal.getD 0 else 0
        classify p.parties tip ring =
          { outcome := .party, digit := some q.digit, candidates := 1, tipAverage := tip, ringAverage := ring }))

/-- PROFILE_CLEAR by the state of the line (R20). -/
def Obligations.ProfileClearByLineState : Prop :=
  ∀ (s : State) (tag : Byte) (n : LineNo), s.LinkReady →
    let l := s.line n
    match l.state with
    | .idle | .blocked =>
      exec (.profileClear tag (toByte n.val)) s = .next
        (((s.setLine n { l with state := .unconfigured, active := none, staged := none, seizeResult := none }).updateLeaky
          n).replied 0x03#8 tag .ok)
    | .unconfigured => exec (.profileClear tag (toByte n.val)) s = .next (s.replied 0x03#8 tag .ok)
    | .seizeId | .seized | .ringing | .answerId | .talk | .revertWait | .revertTalk | .linger | .lockout | .fault =>
      exec (.profileClear tag (toByte n.val)) s = .next (s.replied 0x03#8 tag .wrongState)

/-- CADENCE_LOAD (R6): IN_USE while a job in use names the pattern, CADENCE_INVALID with the error list, or replaced at
once; the cells stand. Each entry of the error list (R5) stands in it exactly where its row of the table raises it, with
the position of the burst, in the order of the table, and a list that meets the conditions of R5, and no other, has none:
its bursts stand in order within the cycle with an off-step between them, its on-steps number the sum of the lengths, 1 to
12, and four off-steps stand together somewhere in the cycle. -/
def Obligations.CadenceLoadReplacesUnusedPattern : Prop :=
  (∀ (s : State) (tag : Byte) (p : PatternNo) (pairs : List (Byte × Byte)), s.LinkReady → pairs.length ≤ 123 →
      let bursts : List Burst := pairs.map fun b => { start := b.1.toNat, length := b.2.toNat }
      let inUse := ∃ id, ∃ j ∈ s.job id, ∃ q ∈ j.codes, q.pattern = p
      (inUse → exec (.cadenceLoad tag (toByte p.val) pairs) s = .next (s.replied 0x04#8 tag .inUse)) ∧
      (¬ inUse → cadenceErrors bursts ≠ [] →
        exec (.cadenceLoad tag (toByte p.val) pairs) s = .next
          (s.replied 0x04#8 tag .cadenceInvalid
            (errorBytes ((cadenceErrors bursts).map fun e => (e.check.ctorIdx, e.item))))) ∧
      (¬ inUse → cadenceErrors bursts = [] →
        ∃ table, (∀ other, table.get other = if other = p then bursts else s.cadence.get other) ∧
          exec (.cadenceLoad tag (toByte p.val) pairs) s = .next
            (State.replied { s with cadence := table } 0x04#8 tag .ok))) ∧
  (∀ bursts : List Burst,
    let counted := 1 ≤ bursts.length ∧ bursts.length ≤ 4
    let total := (bursts.map Burst.length).sum
    let off (k : Pos) : Prop := ∀ b ∈ bursts, ¬ (b.start ≤ k.val ∧ k.val < b.start + b.length)
    let gap : Prop := ∃ k, off k ∧ off (k + 1) ∧ off (k + 2) ∧ off (k + 3)
    (∀ check item, ⟨check, item⟩ ∈ cadenceErrors bursts ↔
      match check with
      | .burstCount => item = 0 ∧ ¬ counted
      | .burstLength => counted ∧ ∃ b, bursts[item]? = some b ∧ b.length = 0
      | .burstEnd => counted ∧ ∃ b, bursts[item]? = some b ∧ 24 < b.start + b.length
      | .burstOrder =>
        counted ∧ 1 ≤ item ∧
          ∃ a, bursts[item - 1]? = some a ∧ ∃ b, bursts[item]? = some b ∧ b.start < a.start + a.length + 1
      | .onTotal => item = 0 ∧ counted ∧ (total = 0 ∨ 12 < total)
      | .noGap => item = 0 ∧ counted ∧ ¬ gap) ∧
    (cadenceErrors bursts).Pairwise (fun a b =>
      a.check.ctorIdx < b.check.ctorIdx ∨ a.check = b.check ∧ a.item < b.item) ∧
    (cadenceErrors bursts = [] ↔
      counted ∧ (∀ b ∈ bursts, 1 ≤ b.length ∧ b.start + b.length ≤ 24) ∧
      bursts.Pairwise (fun a b => a.start + a.length + 1 ≤ b.start) ∧ 1 ≤ total ∧ total ≤ 12 ∧ gap) ∧
    (∀ k, onStep bursts k = true ↔ ¬ off k) ∧
    (cadenceErrors bursts = [] → (List.finRange 24).countP (fun k => onStep bursts k) = total))

/-- CADENCE_READ (R7): a pattern over 7 is refused; otherwise the reply carries the burst count and the bursts in list
order; nothing changes, whatever the state of jobs and lines. -/
def Obligations.CadenceReadReturnsThePattern : Prop :=
  ∀ (s : State) (tag : Byte), s.LinkReady →
    (∀ pattern : Byte, 7 < pattern.toNat →
      exec (.cadenceRead tag pattern) s = .next (s.replied 0x05#8 tag .badArgument)) ∧
    (∀ p : PatternNo,
      exec (.cadenceRead tag (toByte p.val)) s = .next
        (s.replied 0x05#8 tag .ok
          (toByte (s.cadence.get p).length ::
            (s.cadence.get p).flatMap fun b => [toByte b.start, toByte b.length])))

/-- The reads of a profile, a job, a channel's cells and a line change nothing but the reply slot (R19, R90, R111, R177).
The bytes after the outcome of an absent seize result are free values (log 12); that bits 2 to 7 of the flags bytes of
JOB_READ and LINE_STATUS are sent as 0 is the model's choice (log 29). The bytes of a profile, a flag, an absent
field and a longer number are spelled in `PayloadsAreReadAsLaidOut`. -/
def Obligations.ReadsReturnWhatStands : Prop :=
  ∀ (s : State) (tag : Byte), s.LinkReady →
    (∀ (n : LineNo) (pending : Bool),
      exec (.profileRead tag (toByte n.val) (flagByte pending)) s = .next
        (match if pending then (s.line n).staged else (s.line n).active with
         | some p => s.replied 0x02#8 tag .ok p.bytes
         | none => s.replied 0x02#8 tag .noProfile)) ∧
    (∀ id : JobId,
      (s.job id = none → exec (.jobRead tag (toByte id.val)) s = .next (s.replied 0x0D#8 tag .noJob)) ∧
      ∀ j, s.job id = some j →
        exec (.jobRead tag (toByte id.val)) s = .next
          (s.replied 0x0D#8 tag .ok
            ([toByte id.val, toByte j.line.val, toByte j.kind.ctorIdx, orAbsent (j.target.map Fin.val),
                toByte j.codes.length] ++
              (j.codes.flatMap fun q => [toByte (q.chan.val + 1), toByte q.side.ctorIdx, toByte q.pattern.val]) ++
              [toByte j.codeIndex, toByte j.remaining, toByte j.rung] ++ le32 j.arrival ++
              (match j.phase with
               | .waiting => [0#8, 0xFF#8] ++ le32 0
               | .placed o stamp => [1#8, toByte o.val] ++ le32 stamp
               | .held => [2#8, 0xFF#8] ++ le32 0) ++
              [toByte j.skips, flagByte j.starved ||| (flagByte j.rang <<< 1)] ++ le16 j.waitingSteps))) ∧
    (∀ c : Chan,
      exec (.phaseRead tag (toByte (c.val + 1))) s = .next
        (s.replied 0x0E#8 tag .ok
          (((List.finRange 24).map fun k => toByte (s.cell c k)) ++
            [toByte (s.channel c).effective, toByte (s.channel c).state.ctorIdx, toByte s.sched.position.val]))) ∧
    (∀ n : LineNo,
      let l := s.line n
      let before : List Byte :=
        [toByte l.state.ctorIdx, flagByte l.leaky ||| (flagByte l.staged.isSome <<< 1), toByte ((l.baseline + 8) / 16),
          toByte l.hookThreshold, toByte l.tripThreshold, toByte l.tripMargin, toByte l.lastGood.loop,
          toByte l.lastGood.tip, toByte l.lastGood.ring]
      let after : List Byte :=
        [orAbsent ((s.activeJob n).map Fin.val), orAbsent ((s.heldJob n).map Fin.val)] ++
        match l.revert with
        | some c =>
          [1#8, toByte c.caller.val, toByte c.called.val, flagByte c.ringBack, toByte c.retries, toByte c.waitSteps] ++
            le16 c.talkSteps ++ [orAbsent (c.job.map Fin.val)]
        | none => [0#8, 0xFF#8, 0xFF#8, 0xFF#8, 0xFF#8, 0xFF#8, 0xFF#8, 0xFF#8, 0xFF#8]
      (∀ r, l.seizeResult = some r →
        exec (.lineStatus tag (toByte n.val)) s = .next
          (s.replied 0x16#8 tag .ok
            (before ++ [toByte r.outcome.ctorIdx, orAbsent (r.digit.map Fin.val), toByte r.candidates,
              toByte r.tipAverage, toByte r.ringAverage] ++ after))) ∧
      (l.seizeResult = none → ∃ w x y z : Byte,
        exec (.lineStatus tag (toByte n.val)) s = .next
          (State.replied { s with freeCount := s.freeCount + 4 } 0x16#8 tag .ok
            (before ++ [0xFF#8, w, x, y, z] ++ after))))

/-! ## Ringing on request -/

/-- RING and GENERAL_RING meet the refusals of R70 in its order: no profile, blocked, lockout or fault, leaky, busy; then
no party, no generator, load over the nominal budget (R77); for GENERAL_RING a GENERAL job of the line, no generator for
some code, every code's load over the nominal budget (R79). A refused request changes nothing. -/
def Obligations.RingIsRefusedInOrder : Prop :=
  ∀ (s : State) (tag : Byte) (n : LineNo) (d : Digit) (cycles : Nat), s.LinkReady → cycles ≤ 40 →
    let l := s.line n
    let ringAnswers (status : Status) : Prop :=
      exec (.ring tag (toByte n.val) (toByte d.val) (toByte cycles)) s = .next (s.replied 0x06#8 tag status)
    let generalAnswers (status : Status) : Prop :=
      exec (.generalRing tag (toByte n.val) (toByte cycles)) s = .next (s.replied 0x07#8 tag status)
    (l.state = .unconfigured → ringAnswers .noProfile ∧ generalAnswers .noProfile) ∧
    (l.state = .blocked → ringAnswers .lineBlocked ∧ generalAnswers .lineBlocked) ∧
    (l.state = .lockout ∨ l.state = .fault → ringAnswers .lineFault ∧ generalAnswers .lineFault) ∧
    (l.state ≠ .unconfigured → l.state ≠ .blocked → l.leaky = true →
      ringAnswers .lineFault ∧ generalAnswers .lineFault) ∧
    (l.leaky = false →
      l.state ∈ [.seizeId, .seized, .answerId, .talk, .revertWait, .revertTalk, .linger] →
      ringAnswers .lineBusy ∧ generalAnswers .lineBusy) ∧
    (l.leaky = false → l.state = .ringing → ringAnswers .lineBusy) ∧
    (l.leaky = false → l.state = .idle → ∀ p, l.active = some p →
      (p.party d = none → ringAnswers .noParty) ∧
      ∀ q, p.party d = some q →
        ((s.channel q.code.chan).state = .absent ∨ (s.channel q.code.chan).state = .failed →
          ringAnswers .noGenerator) ∧
        ((s.channel q.code.chan).state ≠ .absent → (s.channel q.code.chan).state ≠ .failed →
          (s.channel q.code.chan).nominal < p.codeLoad q.code → ringAnswers .loadExceeds)) ∧
    (l.leaky = false → l.state = .ringing → ∀ p, l.active = some p →
      ∀ id j, s.activeJob n = some id → s.job id = some j → j.kind = .general → generalAnswers .lineBusy) ∧
    (l.leaky = false → (l.state = .idle ∨ l.state = .ringing) →
      (∀ id j, s.job id = some j → j.line = n → j.kind ≠ .general) → ∀ p, l.active = some p →
      ((∃ q ∈ generalCodes p.parties, (s.channel q.chan).state = .absent ∨ (s.channel q.chan).state = .failed) →
        generalAnswers .noGenerator) ∧
      ((∀ q ∈ generalCodes p.parties,
          (s.channel q.chan).state ≠ .absent ∧ (s.channel q.chan).state ≠ .failed ∧
          (s.channel q.chan).nominal < p.codeLoad q) →
        generalAnswers .loadExceeds))

/-- RING that passes its checks creates a CALL job in the lowest free record, puts it in the queue and takes the line into
RINGING; every other job, line and channel, the cells and the hold record stand (R73, R74, R76 to R78). With the counter
at its limit the arrival stamps of the jobs in use are renumbered in their order first (R74). -/
def Obligations.RingCreatesCallJob : Prop :=
  ∀ (s : State) (tag : Byte) (n : LineNo) (d : Digit) (cycles : Nat) (p : Profile) (q : Party) (id : JobId),
    s.LinkReady → cycles ≤ 40 → (s.line n).state = .idle → (s.line n).leaky = false → (s.line n).active = some p →
    p.party d = some q → (s.channel q.code.chan).state ≠ .absent → (s.channel q.code.chan).state ≠ .failed →
    p.codeLoad q.code ≤ (s.channel q.code.chan).nominal →
    s.job id = none → (∀ lower, lower < id → s.job lower ≠ none) →
    ∃ u,
      exec (.ring tag (toByte n.val) (toByte d.val) (toByte cycles)) s =
        .next (u.replied 0x06#8 tag .ok [toByte id.val]) ∧
      u.job id = some
        { line := n, kind := .call, target := some d, codes := [q.code], codeIndex := 0,
          remaining := if cycles = 0 then p.ringTimeout else cycles, rung := 0, arrival := s.nextArrival,
          phase := .waiting, skips := 0, starved := false, waitingSteps := 0, rang := false } ∧
      (∀ other, other ≠ id → u.job other = (s.job other).map s.afterCreation) ∧
      (∃ before behind, s.sched.queue = before ++ behind ∧ u.sched.queue = before ++ id :: behind) ∧
      u.sched.arrivalCounter = s.nextArrival + 1 ∧
      u.line n = { s.line n with state := .ringing, applied := none, blanking := 0, tripScore := 0 } ∧
      s.SameOutside n u ∧ u.channels = s.channels ∧ u.hold = s.hold ∧ u.port = s.port ∧
      u.sched.cells = s.sched.cells ∧ u.sched.placements = s.sched.placements ∧
      u.sched.position = s.sched.position ∧ u.sched.placementCounter = s.sched.placementCounter

/-- The general code list has one code of pattern 6 for each channel and side of the party list, each once, in the order
of the first party that has it (R79). -/
def Obligations.GeneralCodesAreDistinct : Prop :=
  ∀ parties : List Party,
    (∀ c ∈ generalCodes parties, c.pattern = 6 ∧ ∃ q ∈ parties, q.code.sounds c = true) ∧
    (∀ q ∈ parties, ∃ c ∈ generalCodes parties, q.code.sounds c = true) ∧
    (generalCodes parties).Pairwise (fun a b => ¬ (a.chan = b.chan ∧ a.side = b.side)) ∧
    (generalCodes parties).length ≤ 8 ∧
    (generalCodes parties).Pairwise (fun a b =>
      parties.findIdx (fun q => q.code.sounds a) < parties.findIdx (fun q => q.code.sounds b)) ∧
    (∀ q rest, parties = q :: rest → (generalCodes parties).head? = some { q.code with pattern := 6 })

/-- GENERAL_RING that passes its checks (R79, R80): codes over the nominal budget are dropped; the line's job, if it has
one, becomes HELD with its demand released; the GENERAL job is created, and the line is in RINGING. With the counter at its
limit the arrival stamps of the jobs in use are renumbered in their order first (R74). -/
def Obligations.GeneralRingHoldsAndCreates : Prop :=
  ∀ (s : State) (tag : Byte) (n : LineNo) (cycles : Nat) (p : Profile) (id : JobId),
    s.LinkReady → s.BlocksInv → s.RingPlanInv → cycles ≤ 40 → (s.line n).leaky = false →
    (s.line n).active = some p →
    s.channelOut (generalCodes p.parties) = false →
    s.job id = none → (∀ lower, lower < id → s.job lower ≠ none) →
    let kept := (generalCodes p.parties).filter fun q => decide (p.codeLoad q ≤ (s.channel q.chan).nominal)
    let created : Job :=
      { line := n, kind := .general, target := none, codes := kept, codeIndex := 0,
        remaining := if cycles = 0 then p.ringTimeout else cycles, rung := 0, arrival := s.nextArrival,
        phase := .waiting, skips := 0, starved := false, waitingSteps := 0, rang := false }
    ((s.line n).state = .idle → kept = [] →
      exec (.generalRing tag (toByte n.val) (toByte cycles)) s = .next (s.replied 0x07#8 tag .loadExceeds)) ∧
    ((s.line n).state = .idle → kept ≠ [] →
      ∃ u,
        exec (.generalRing tag (toByte n.val) (toByte cycles)) s =
          .next (u.replied 0x07#8 tag .ok [toByte id.val, toByte kept.length, 0xFF#8]) ∧
        u.job id = some created ∧ (∀ other, other ≠ id → u.job other = (s.job other).map s.afterCreation) ∧
        u.sched.arrivalCounter = s.nextArrival + 1 ∧
        u.line n = { s.line n with state := .ringing, applied := none, blanking := 0, tripScore := 0 } ∧
        s.SameOutside n u ∧ u.sched.cells = s.sched.cells ∧ u.sched.placements = s.sched.placements ∧
        u.channels = s.channels ∧ u.hold = s.hold ∧ u.port = s.port) ∧
    ((s.line n).state = .ringing → kept ≠ [] → ∀ a j, s.job a = some j → j.line = n → j.isHeld = false →
      (j.kind = .general →
        exec (.generalRing tag (toByte n.val) (toByte cycles)) s = .next (s.replied 0x07#8 tag .lineBusy)) ∧
      (j.kind ≠ .general →
        ∃ u,
          exec (.generalRing tag (toByte n.val) (toByte cycles)) s =
            .next (u.replied 0x07#8 tag .ok [toByte id.val, toByte kept.length, toByte a.val]) ∧
          u.job id = some created ∧ u.job a = some { s.afterCreation j with phase := .held, rang := false } ∧
          (∀ other, other ≠ id → other ≠ a → u.job other = (s.job other).map s.afterCreation) ∧
          u.sched.arrivalCounter = s.nextArrival + 1 ∧
          (∀ c k, u.cell c k =
            s.cell c k - (match j.phase with | .placed o _ => s.demand j o c k | .waiting | .held => 0)) ∧
          u.sched.placements = s.sched.placements.filter (fun e => e.job != a) ∧
          (u.line n).state = .ringing ∧ (u.line n).applied = none ∧
          (u.line n).tripScore = (s.line n).tripScore ∧ (u.line n).baseline = (s.line n).baseline ∧
          s.SameOutside n u ∧ u.channels = s.channels))

/-- CANCEL by the state of the line (R70, R83, R132). -/
def Obligations.CancelByLineState : Prop :=
  ∀ (s : State) (tag : Byte) (n : LineNo), s.LinkReady →
    let answers (u : State) (status : Status) (body : List Byte) : Prop :=
      exec (.cancel tag (toByte n.val)) s = .next (u.replied 0x08#8 tag status body)
    match (s.line n).state with
    | .unconfigured => answers s .noProfile []
    | .blocked => answers s .lineBlocked []
    | .lockout | .fault => answers s .lineFault []
    | .answerId | .talk | .revertTalk => answers s .tooLate []
    | .idle | .seizeId | .seized | .linger => answers s .noJob []
    | .ringing => ∀ id, s.activeJob n = some id → answers (s.endJob id .cancelled) .ok [toByte id.val]
    | .revertWait =>
      ∀ c, (s.line n).revert = some c →
        answers
          ((s.setLine n { s.line n with state := .seized, revert := none }).post
            (.revertEvent
              { line := n, event := .abandoned, caller := c.caller, called := c.called, ringBack := c.ringBack,
                retries := c.retries, cause := some .cancelled }))
          .ok [0xFF#8]

/-- The end of a job with no HELD job beneath it (R85): its record is freed, its demand released, it stands in no queue and
no entry, and for NO_ANSWER, CANCELLED, NO_CAPACITY and GEN_FAILED its line enters IDLE. JOB_END is posted for a CALL or
GENERAL job. The end of a REVERT job by any cause but ANSWERED, also of a HELD one, ends its call (R139): the context is
deleted, and REVERT_EVENT ENDED carries the cause, the job id and the cycles rung and remaining. -/
def Obligations.JobEndReleasesTheJob : Prop :=
  (∀ (s : State) (id : JobId) (j : Job) (cause : EndCause),
    s.RingPlanInv → s.job id = some j → j.isHeld = false → s.heldJob j.line = none →
    cause ∈ [.noAnswer, .cancelled, .noCapacity, .genFailed] →
    let t := s.endJob id cause
    (∀ other, t.job other = if other = id then none else s.job other) ∧
    t.sched.queue = s.sched.queue.filter (· != id) ∧
    t.sched.placements = s.sched.placements.filter (fun e => e.job != id) ∧
    (∀ c k, t.cell c k =
      s.cell c k - (match j.phase with | .placed o _ => s.demand j o c k | .waiting | .held => 0)) ∧
    (t.line j.line).state = .idle ∧ (t.line j.line).applied = none ∧ (t.line j.line).staged = none ∧
    (t.line j.line).revert = none ∧
    t.channels = s.channels ∧ s.SameOutside j.line t ∧
    (j.kind ≠ .revert →
      (t.port.lineFlags.get j.line).getLsbD 1 = true ∧
      (s.port.masks.getLsbD 1 = false → s.port.indications.length + 1 < 32 →
        .jobEnd id j.line j.kind cause j.rung j.remaining ∈ t.port.indications))) ∧
  (∀ (s : State) (id : JobId) (j : Job) (cause : EndCause) (c : RevertContext),
    s.job id = some j → j.kind = .revert → (s.line j.line).revert = some c → cause ≠ .answered →
    let t := s.endJob id cause
    t.job id = none ∧ (t.line j.line).revert = none ∧ (t.port.lineFlags.get j.line).getLsbD 2 = true ∧
    (s.port.masks.getLsbD 2 = false → s.port.indications.length + 1 < 32 →
      .revertEvent
        { line := j.line, event := .ended, caller := c.caller, called := c.called, ringBack := c.ringBack,
          retries := c.retries, cause := some cause, job := some id, rung := some j.rung,
          remaining := some j.remaining } ∈ t.port.indications))

/-- What becomes of a HELD job when the GENERAL job above it ends (R82): it returns to WAITING with its kept fields, or
ends with the line: PREEMPTED at a trip, otherwise with the line's own cause (R87), reported by JOB_END or, for a REVERT
job, by the end of its call (R139). -/
def Obligations.HeldJobFollowsItsGeneralJob : Prop :=
  ∀ (s : State) (id held : JobId) (g h : Job),
    s.RingPlanInv → s.job id = some g → g.kind = .general → g.isHeld = false → s.job held = some h →
    h.line = g.line → h.isHeld = true →
    (∀ cause ∈ [EndCause.noAnswer, .cancelled, .noCapacity, .genFailed],
      let t := s.endJob id cause
      t.job id = none ∧
      (s.channelOut h.codes = false →
        t.job held = some { h with phase := .waiting } ∧ held ∈ t.sched.queue ∧ (t.line g.line).state = .ringing)) ∧
    (∀ cause ∈ [EndCause.answered, .lineFault, .blocked],
      let t := s.endJob id cause
      let reported : EndCause := if cause = .answered then .preempted else cause
      t.job id = none ∧ t.job held = none ∧ id ∉ t.sched.queue ∧ held ∉ t.sched.queue ∧
      (h.kind ≠ .revert →
        (t.port.lineFlags.get g.line).getLsbD 1 = true ∧
        (s.port.masks.getLsbD 1 = false → s.port.indications.length + 2 < 32 →
          .jobEnd held g.line h.kind reported h.rung h.remaining ∈ t.port.indications)) ∧
      (h.kind = .revert → ∀ c, (s.line g.line).revert = some c →
        (t.line g.line).revert = none ∧ (t.port.lineFlags.get g.line).getLsbD 2 = true ∧
        (s.port.masks.getLsbD 2 = false → s.port.indications.length + 2 < 32 →
          .revertEvent
            { line := g.line, event := .ended, caller := c.caller, called := c.called, ringBack := c.ringBack,
              retries := c.retries, cause := some reported, job := some held, rung := some h.rung,
              remaining := some h.remaining } ∈ t.port.indications)))

/-! ## Lines on request -/

/-- Every entry to IDLE, from UNCONFIGURED too, brings the Line Context into one condition (R16, R56): a pending profile
committed, the hook filter restarted on-hook, no park timer, revert context, window or applied code, the baseline and the seize result kept; the
LEAKY flag follows the profile now active (R17, R33). -/
def Obligations.EntryToIdleIsAlwaysTheSame : Prop :=
  ∀ (s : State) (n : LineNo),
    let l := s.line n
    (l.state ≠ .ringing → l.applied = none ∧ l.blanking = 0 ∧ l.tripScore = 0) →
    (l.state ≠ .seizeId → l.state ≠ .answerId →
      l.window = { phase := .none, kind := none, arrivals := 0, tipSum := 0, ringSum := 0 } ∧ l.answered = none) →
    let rest : Line :=
      { l with
        state := .idle, active := if l.staged.isSome then l.staged else l.active, staged := none, applied := none,
        hook := { offHook := false, disagreement := 0, breakCount := 0, makeCount := 0, pulseCount := 0 },
        blanking := 0, tripScore := 0,
        window := { phase := .none, kind := none, arrivals := 0, tipSum := 0, ringSum := 0 },
        park := none, revert := none, answered := none }
    s.enterIdle n = (s.setLine n rest).updateLeaky n

/-- The derived values of a line (R31, R32) with their ranges for a valid profile, and the LEAKY flag with its LEAK_CHANGE
(R33). -/
def Obligations.DerivedValuesAndLeakyFlag : Prop :=
  (∀ (l : Line) (p : Profile), l.active = some p → p.Valid → l.baseline ≤ 4080 →
    let b := (l.baseline + 8) / 16
    let current := 192000 / (p.resistance + 400)
    l.leakage = b ∧ b ≤ 255 ∧
    l.hookThreshold = min 255 (b + p.hookMargin) ∧ 8 ≤ l.hookThreshold ∧
    l.answerCurrent = current ∧ 30 ≤ current ∧ current ≤ 480 ∧
    l.tripMargin = current / 2 - (current / 2 - 80) ∧ 15 ≤ l.tripMargin ∧ l.tripMargin ≤ 80 ∧
    l.tripThreshold = min 255 (b + l.tripMargin) ∧ 15 ≤ l.tripThreshold ∧
    ∀ code, l.onThreshold code = min 255 (l.tripThreshold + 2 * p.codeLoad code) ∧
      l.onThreshold code ≤ l.tripThreshold + 48) ∧
  (∀ l : Line, l.active = none → l.leakage = (l.baseline + 8) / 16 ∧ l.hookThreshold = 0 ∧ l.answerCurrent = 0 ∧
    l.tripMargin = 0 ∧ l.tripThreshold = 0) ∧
  (∀ (s : State) (n : LineNo),
    let l := s.line n
    let b := (l.baseline + 8) / 16
    let becomes (leaky : Bool) : Prop :=
      s.updateLeaky n =
        if leaky = l.leaky then s else (s.setLine n { l with leaky := leaky }).post (.leakChange n leaky b)
    (l.active = none → becomes false) ∧
    ∀ p, l.active = some p →
      (p.leakLimit < b → becomes true) ∧ (b + 4 ≤ p.leakLimit → becomes false) ∧
      (b ≤ p.leakLimit → p.leakLimit < b + 4 → becomes l.leaky))

/-- RELEASE by the state of the line and the confirmed hook state (R60, R70, R138). -/
def Obligations.ReleaseByHookState : Prop :=
  ∀ (s : State) (tag : Byte) (n : LineNo), s.LinkReady →
    let l := s.line n
    let answers (u : State) (status : Status) (body : List Byte) : Prop :=
      exec (.release tag (toByte n.val)) s = .next (u.replied 0x0A#8 tag status body)
    match l.state with
    | .seized =>
      (l.hook.offHook = false → answers (s.enterIdle n) .ok [1#8]) ∧
      (l.hook.offHook = true → ∀ p, l.active = some p →
        answers
          (s.setLine n { l with state := .linger, park := some p.parkTime, hook := { l.hook with pulseCount := 0 } })
          .ok [9#8])
    | .talk =>
      (l.hook.offHook = false → answers (s.enterIdle n) .ok [1#8]) ∧
      (l.hook.offHook = true → ∀ p, l.active = some p →
        answers (s.setLine n { l with state := .linger, park := some p.parkTime }) .ok [9#8])
    | .revertTalk =>
      ∀ c, l.revert = some c → ∀ p, l.active = some p →
        let ended := (s.setLine n { l with revert := none }).post
          (.revertEvent
            { line := n, event := .ended, caller := c.caller, called := c.called, ringBack := c.ringBack,
              retries := c.retries, cause := some .released, duration := some (c.talkSteps / 4) })
        (l.hook.offHook = false → answers (ended.enterIdle n) .ok [1#8]) ∧
        (l.hook.offHook = true →
          answers (ended.setLine n { l with revert := none, state := .linger, park := some p.parkTime }) .ok [9#8])
    | .unconfigured => answers s .noProfile []
    | .blocked => answers s .lineBlocked []
    | .lockout | .fault => answers s .lineFault []
    | .idle | .seizeId | .ringing | .answerId | .revertWait | .linger => answers s .wrongState []

/-- BLOCK and UNBLOCK by the state of the line (R65, R66, R70); what a line taken into BLOCKED or FAULT leaves behind is
ended: its window, its park timer, its digit, its jobs and its revert context (R65, R68, R87, R140). The ends are reported
in this order: the GENERAL job's before the HELD job's, or the reverting call's, with the job in ANSWER_ID and the duration
in REVERT_TALK. That a HOLD_EVENT of the last removal stands before them is the model's reading (log 24). -/
def Obligations.BlockEndsWhatTheLineLeaves : Prop :=
  (∀ (s : State) (tag : Byte) (n : LineNo), s.LinkReady →
    let blockAnswers (u : State) (status : Status) : Prop :=
      exec (.block tag (toByte n.val)) s = .next (u.replied 0x0B#8 tag status)
    let unblockAnswers (u : State) (status : Status) : Prop :=
      exec (.unblock tag (toByte n.val)) s = .next (u.replied 0x0C#8 tag status)
    match (s.line n).state with
    | .unconfigured => blockAnswers s .noProfile ∧ unblockAnswers s .noProfile
    | .blocked => blockAnswers s .ok ∧ unblockAnswers (s.enterIdle n) .ok
    | .lockout | .fault =>
      blockAnswers (s.takeOut n .blocked .blocked) .ok ∧ unblockAnswers s .lineFault
    | .idle | .seizeId | .seized | .ringing | .answerId | .talk | .revertWait | .revertTalk | .linger =>
      blockAnswers (s.takeOut n .blocked .blocked) .ok ∧ unblockAnswers s .wrongState) ∧
  (∀ (s : State) (n : LineNo) (state : LineState) (cause : EndCause), s.BlocksInv → s.RingPlanInv →
    (s.line n).state ≠ .unconfigured → (state = .blocked ∧ cause = .blocked ∨ state = .fault ∧ cause = .lineFault) →
    let l := s.line n
    let t := s.takeOut n state cause
    t.line n =
      { l with
        state := state, applied := none, blanking := 0, tripScore := 0,
        hook := { l.hook with pulseCount := 0 },
        window := { phase := .none, kind := none, arrivals := 0, tipSum := 0, ringSum := 0 },
        park := none, revert := none, answered := none } ∧
    (∀ id j, s.job id = some j → if j.line = n then t.job id = none else t.job id = some j) ∧
    (∀ id, s.job id = none → t.job id = none) ∧
    s.SameOutside n t ∧ t.channels = s.channels ∧
    (∀ c, l.revert = some c → (t.port.lineFlags.get n).getLsbD 2 = true) ∧
    ((∃ id, ∃ j ∈ s.job id, j.line = n ∧ j.kind ≠ .revert) → (t.port.lineFlags.get n).getLsbD 1 = true) ∧
    let ended (c : RevertContext) : RevertReport :=
      { line := n, event := .ended, caller := c.caller, called := c.called, ringBack := c.ringBack,
        retries := c.retries, cause := some cause }
    let callEnds (fill : RevertReport → RevertReport) : List Indication :=
      match l.revert with | some c => [.revertEvent (fill (ended c))] | none => []
    let jobEnds (found : Option JobId) : List Indication :=
      match found with
      | none => []
      | some id =>
        match s.job id with
        | none => []
        | some j =>
          if j.kind = .revert then
            callEnds fun r => { r with job := some id, rung := some j.rung, remaining := some j.remaining }
          else [.jobEnd id n j.kind cause j.rung j.remaining]
    (s.port.masks = 0#8 → s.port.indications.length ≤ 29 →
      ∃ holds, (∀ i ∈ holds, ∃ h, i = .holdEvent h) ∧
        t.port.indications =
          s.port.indications ++ holds ++
            (if l.state = .ringing then jobEnds (s.activeJob n) ++ jobEnds (s.heldJob n)
             else callEnds fun r =>
               { r with
                 job := if l.state = .answerId then l.answered.map AnsweredJob.job else none
                 duration := if l.state = .revertTalk then l.revert.map (fun c => c.talkSteps / 4) else none })))

/-- REVERT meets its checks in order (R70, R127); a REVERT that passes them creates the context, takes the line into
REVERT_WAIT and replies the ring-back choice (R128, R129). -/
def Obligations.RevertIsCheckedThenTaken : Prop :=
  ∀ (s : State) (tag : Byte) (n : LineNo) (called : Digit), s.LinkReady →
    let l := s.line n
    let refused (status : Status) : Prop :=
      exec (.revert tag (toByte n.val) (toByte called.val)) s = .next (s.replied 0x09#8 tag status)
    (l.state = .unconfigured → refused .noProfile) ∧ (l.state = .blocked → refused .lineBlocked) ∧
    (l.state = .lockout ∨ l.state = .fault → refused .lineFault) ∧
    (l.state ∈ [.idle, .seizeId, .ringing, .answerId, .talk, .revertWait, .revertTalk, .linger] →
      refused .wrongState) ∧
    (l.state = .seized →
      (l.leaky = true → refused .lineFault) ∧
      (l.leaky = false →
        (∀ r, l.seizeResult = some r → r.outcome ≠ .party → refused .callerUnknown) ∧
        (l.seizeResult = none → refused .callerUnknown) ∧
        ∀ r, l.seizeResult = some r → ∀ caller, r.digit = some caller → ∀ p, l.active = some p → r.outcome = .party →
          (p.party called = none → refused .noParty) ∧
          ∀ callee, p.party called = some callee →
            (called = caller → refused .sameParty) ∧
            ∀ calling, p.party caller = some calling → called ≠ caller →
              (calling.revertPermitted = false ∨ callee.revertPermitted = false → refused .notPermitted) ∧
              (calling.revertPermitted = true → callee.revertPermitted = true →
                let ringBack := decide (¬ (calling.code.chan = callee.code.chan ∧ calling.code.side = callee.code.side))
                let codes := if ringBack then [callee.code, calling.code] else [callee.code]
                ((∃ q ∈ codes, (s.channel q.chan).state = .absent ∨ (s.channel q.chan).state = .failed) →
                  refused .noGenerator) ∧
                ((∀ q ∈ codes, (s.channel q.chan).state ≠ .absent ∧ (s.channel q.chan).state ≠ .failed) →
                  ((∃ q ∈ codes, (s.channel q.chan).nominal < p.codeLoad q) → refused .loadExceeds) ∧
                  ((∀ q ∈ codes, p.codeLoad q ≤ (s.channel q.chan).nominal) →
                    exec (.revert tag (toByte n.val) (toByte called.val)) s = .next
                      ((s.setLine n
                        { l with
                          state := .revertWait, hook := { l.hook with pulseCount := 0 },
                          revert := some
                            { caller := caller, called := called, ringBack := ringBack, retries := 0,
                              waitSteps := p.revertWait, talkSteps := 0, job := none } }).replied
                        0x09#8 tag .ok [flagByte ringBack])))))) 

/-! ## Generators -/

/-- GENERATOR_SET (R145): refused IN_USE where the new effective budget is below a committed load, else taken by the state
of the channel. That the overload mark stands at the entry to ABSENT, which R145 does not name, is the model's reading
(log 17). -/
def Obligations.GeneratorSetByChannelState : Prop :=
  ∀ (s : State) (tag : Byte) (c : Chan) (nominal : Nat), s.LinkReady → nominal ≤ 60 →
    let ch := s.channel c
    let scaled := match ch.derate with | 0 => nominal | 1 => nominal * 3 / 4 | _ => nominal * 2 / 4
    let effective := if ch.state = .absent ∨ ch.state = .failed then 0 else scaled
    let answers (u : State) (status : Status) (body : List Byte) : Prop :=
      exec (.generatorSet tag (toByte (c.val + 1)) (toByte nominal)) s = .next (u.replied 0x0F#8 tag status body)
    (∀ highest, effective < highest → (∀ k, s.cell c k ≤ highest) → (∃ k, s.cell c k = highest) →
      answers s .inUse [toByte highest]) ∧
    ((∀ k, s.cell c k ≤ effective) →
      (ch.state = .absent → nominal = 0 → answers s .ok [0#8, 0#8]) ∧
      (ch.state = .absent → nominal ≠ 0 →
        answers
          ((s.setChannel c
            { ch with
              state := .off, nominal := nominal, derate := 0, recovery := 0, overloadMark := false, idleCount := 0,
              startTimer := none, entryMark := false }).post (.generatorEvent c .off 0 .request))
          .ok [1#8, toByte nominal]) ∧
      (ch.state ≠ .absent → nominal ≠ 0 →
        answers (s.setChannel c { ch with nominal := nominal }) .ok [toByte ch.state.ctorIdx, toByte effective]) ∧
      (ch.state ≠ .absent → nominal = 0 →
        answers
          (((s.setChannel c
            { ch with
              state := .absent, nominal := 0, derate := 0, recovery := 0, idleCount := 0, startTimer := none,
              entryMark := false }).post (.generatorEvent c .absent 0 .request)).channelLost c)
          .ok [0#8, 0#8]))

/-- GENERATOR_RESET (R146): a channel byte outside 1 to 4 is refused; a FAILED channel enters OFF at level 0 with its
counts at 0, GRUN low and no cell changed; any other state is refused. -/
def Obligations.GeneratorResetReturnsAFailedChannel : Prop :=
  ∀ (s : State) (tag : Byte), s.LinkReady →
    (∀ channel : Byte, (channel.toNat < 1 ∨ 4 < channel.toNat) →
      exec (.generatorReset tag channel) s = .next (s.replied 0x10#8 tag .badArgument)) ∧
    ∀ c : Chan,
      ((s.channel c).state ≠ .failed →
        exec (.generatorReset tag (toByte (c.val + 1))) s = .next (s.replied 0x10#8 tag .wrongState)) ∧
      ((s.channel c).state = .failed →
        ∃ u : State,
          exec (.generatorReset tag (toByte (c.val + 1))) s = .next (u.replied 0x10#8 tag .ok) ∧
          (u.channel c).state = .off ∧ (u.channel c).grun = false ∧ (u.channel c).derate = 0 ∧
          (u.channel c).recovery = 0 ∧ (u.channel c).overloadMark = false ∧ (u.channel c).idleCount = 0 ∧
          (u.channel c).nominal = (s.channel c).nominal ∧
          (∀ other, other ≠ c → u.channel other = s.channel other) ∧ u.sched = s.sched ∧ u.lines = s.lines ∧
          u.port = (s.post (.generatorEvent c .off 0 .request)).port ∧
          (∀ q : RingCode, q.chan = c → u.channelOut [q] = false))

/-- READY, READY_LOST, OVERLOAD and GOVL_WITHDRAWN by the state of the channel (R144, R148, R149, R151, R152). That a level
that stands already is no event is the model's reading (log 14), and so is the idle count 0 at the entry to FAILED, which
is read from R154 (log 17). -/
def Obligations.SignalsByChannelState : Prop :=
  ∀ (s : State) (c : Chan),
    let ch := s.channel c
    let failed (level : Channel) (cause : GeneratorCause) : State :=
      ((s.setChannel c { level with state := .failed, startTimer := none, idleCount := 0, entryMark := false }).post
        (.generatorEvent c .failed ch.derate cause)).channelLost c
    (ch.grdy = true → exec (.ready c) s = .next s.arbitrate) ∧
    (ch.grdy = false → ch.state = .starting →
      exec (.ready c) s = .next
        (((s.setChannel c { ch with grdy := true, state := .running, startTimer := none }).post
          (.generatorEvent c .running ch.derate .ready)).arbitrate)) ∧
    (ch.grdy = false → ch.state ≠ .starting →
      exec (.ready c) s = .next (s.setChannel c { ch with grdy := true }).arbitrate) ∧
    (ch.grdy = false → exec (.readyLost c) s = .next s.arbitrate) ∧
    (ch.grdy = true → ch.state = .running →
      exec (.readyLost c) s = .next (failed { ch with grdy := false } .readyLost).arbitrate) ∧
    (ch.grdy = true → ch.state ≠ .running →
      exec (.readyLost c) s = .next (s.setChannel c { ch with grdy := false }).arbitrate) ∧
    (ch.govl = true → exec (.overload c) s = .next s.arbitrate) ∧
    (ch.govl = false → (ch.state = .starting ∨ ch.state = .running) → ch.derate < 2 →
      exec (.overload c) s = .next
        ((((s.setChannel c
          { ch with govl := true, derate := ch.derate + 1, recovery := 0, overloadMark := true }).post
          (.generatorEvent c ch.state (ch.derate + 1) .overload)).overloadReport c).arbitrate)) ∧
    (ch.govl = false → (ch.state = .starting ∨ ch.state = .running) → 2 ≤ ch.derate →
      exec (.overload c) s = .next (failed { ch with govl := true } .overload).arbitrate) ∧
    (ch.govl = false → (ch.state ≠ .starting ∧ ch.state ≠ .running) →
      exec (.overload c) s = .next (s.setChannel c { ch with govl := true }).arbitrate) ∧
    exec (.govlWithdrawn c) s = .next (s.setChannel c { ch with govl := false })

/-- A channel reported FAILED or ABSENT (R89, R108): no job that uses it is left, whatever its state. From a state within
the invariants whose channel then becomes FAILED or ABSENT, with what is posted of it (R151): every job that uses it,
WAITING, PLACED or HELD, ends GEN_FAILED with its JOB_END, or for a REVERT job the end of its call (R139), in increasing
order of job id for jobs not HELD, and nothing else is reported but HOLD_EVENT and LEAK_CHANGE; a line left with no job
enters IDLE, with its LEAKY flag as R33 gives it, and a line with another job stays in RINGING; no other line changes. Jobs
that do not use the channel keep their records and entries, but for a HELD job that returns to WAITING as the GENERAL job
above it ends (R82); the channel's cells are 0. -/
def Obligations.LostChannelEndsItsJobs : Prop :=
  (∀ (s : State) (c : Chan),
    let t := s.channelLost c
    (∀ id j, t.job id = some j → j.uses c = false) ∧ t.channels = s.channels ∧ t.cadence = s.cadence) ∧
  (∀ (s : State) (c : Chan) (ch : Channel) (port : Port), s.RingPlanInv →
    (ch.state = .failed ∨ ch.state = .absent) →
    let t := State.channelLost { s.setChannel c ch with port := port } c
    let ended : Nat := (List.finRange 32).countP fun id => (s.job id).any fun j => j.uses c
    let unmasked (j : Job) : Prop := port.masks.getLsbD (if j.kind = .revert then 2 else 1) = false
    let room : Prop := port.indications.length + 2 * ended + 1 ≤ 32
    let reports (id : JobId) (j : Job) (i : Indication) : Prop :=
      (j.kind ≠ .revert ∧ i = .jobEnd id j.line j.kind .genFailed j.rung j.remaining) ∨
      (j.kind = .revert ∧ ∃ v ∈ (s.line j.line).revert,
        i = .revertEvent
          { line := j.line, event := .ended, caller := v.caller, called := v.called, ringBack := v.ringBack,
            retries := v.retries, cause := some .genFailed, job := some id, rung := some j.rung,
            remaining := some j.remaining })
    t.channel c = ch ∧
    (∀ id, s.job id = none → t.job id = none) ∧
    (∀ id j, s.job id = some j → j.uses c = true →
      t.job id = none ∧ id ∉ t.sched.queue ∧
      (t.port.lineFlags.get j.line).getLsbD (if j.kind = .revert then 2 else 1) = true) ∧
    (∃ posted, t.port.indications = port.indications ++ posted ∧
      (∀ i ∈ posted,
        (∃ h, i = .holdEvent h) ∨ (∃ n leaky b, i = .leakChange n leaky b) ∨
        ∃ id j, s.job id = some j ∧ j.uses c = true ∧ reports id j i) ∧
      (room → ∀ id j, s.job id = some j → j.uses c = true → unmasked j → ∃ i ∈ posted, reports id j i) ∧
      (room → ∀ a x b y, s.job a = some x → s.job b = some y → x.uses c = true → y.uses c = true → a < b →
        x.isHeld = false → y.isHeld = false → unmasked x → unmasked y →
        ∃ i ∈ posted, ∃ k ∈ posted, reports a x i ∧ reports b y k ∧ [i, k].Sublist posted)) ∧
    (∀ id j, s.job id = some j → j.uses c = false →
      let returns : Prop :=
        j.phase = .held ∧ ∃ above, ∃ g ∈ s.job above, g.line = j.line ∧ g.kind = .general ∧ g.uses c = true
      (returns → t.job id = some { j with phase := .waiting } ∧ id ∈ t.sched.queue) ∧
      (¬ returns → t.job id = some j)) ∧
    t.sched.placements = s.sched.placements.filter (fun e => (s.job e.job).any fun j => !j.uses c) ∧
    (∀ k, t.cell c k = 0) ∧
    (∀ d k, t.cell d k = (t.sched.placements.map fun e => t.entryDemand e d k).sum) ∧
    (∀ n,
      let l := s.line n
      ((∀ id j, s.job id = some j → j.line = n → j.uses c = false) → t.line n = l) ∧
      ((∃ id, ∃ j ∈ s.job id, j.line = n ∧ j.uses c = false) → (t.line n).state = .ringing) ∧
      ((∃ id, ∃ j ∈ s.job id, j.line = n) → (∀ id j, s.job id = some j → j.line = n → j.uses c = true) →
        let active := if l.staged.isSome then l.staged else l.active
        let b := (l.baseline + 8) / 16
        t.line n =
          { l with
            state := .idle, active := active, staged := none
            leaky :=
              match active with
              | none => false
              | some p => if p.leakLimit < b then true else if b + 4 ≤ p.leakLimit then false else l.leaky
            applied := none
            hook := { offHook := false, disagreement := 0, breakCount := 0, makeCount := 0, pulseCount := 0 }
            blanking := 0, tripScore := 0, park := none, revert := none })))

/-- An overload report (R150): the channel's codes are cut, and jobs are unplaced, newest first, until no cell of the
channel exceeds E(c): a job is unplaced exactly where, with the newer jobs unplaced before it, some cell it has demand at
still exceeds E(c). No job ends; a job with no demand at an exceeding cell stays PLACED, and an unplaced one is WAITING in
the queue. A job that stays PLACED keeps its entry, also a code applied on another channel, unless its code lay on the
channel; a line that loses its code is blanked for two arrivals (R107), and every other line with a PLACED job stands. -/
def Obligations.OverloadRestoresTheBudget : Prop :=
  ∀ (s : State) (c : Chan), s.JobsInv → s.QueueInv → s.PlacementsInv →
    (∀ d k, s.cell d k = (s.sched.placements.map fun e => s.entryDemand e d k).sum) →
    let t := s.overloadReport c
    (∀ k, t.cell c k ≤ (t.channel c).effective) ∧ t.channels = s.channels ∧
    (∀ e ∈ t.sched.placements, ∀ q ∈ e.applied, q.chan ≠ c) ∧
    (∀ id, s.job id = none → t.job id = none) ∧
    (∀ id j, s.job id = some j →
      (j.offset = none → t.job id = some j) ∧
      (∀ o, j.offset = some o →
        (t.job id = some j ∨ t.job id = some { j with phase := .waiting, rang := false } ∧ id ∈ t.sched.queue) ∧
        ((∀ k, s.cell c k ≤ (s.channel c).effective ∨ s.demand j o c k = 0) → t.job id = some j))) ∧
    let unplaced (f : Placement) : Bool := (t.job f.job).any Job.isWaiting
    let cut (e : Placement) : Bool := e.applied.any fun q => q.chan == c
    t.sched.placements =
      (s.sched.placements.filter fun e => !unplaced e).map
        (fun e => if cut e then { e with applied := none } else e) ∧
    (∀ e ∈ s.sched.placements, ∀ j ∈ s.job e.job, (s.line j.line).applied = e.applied →
      t.line j.line =
        if e.applied.isSome = true ∧ (cut e = true ∨ unplaced e = true) then
          { s.line j.line with applied := none, blanking := 2 }
        else s.line j.line) ∧
    (∀ older e newer, s.sched.placements = older ++ e :: newer →
      (unplaced e = true ↔
        ∃ k, 0 < s.entryDemand e c k ∧
          (s.channel c).effective + ((newer.filter unplaced).map fun f => s.entryDemand f c k).sum < s.cell c k))

/-! ## Storm hold -/

/-- HOLD and RESUME by the hold state (R158, R161): the change, its HOLD_EVENT, the removals and the reply. -/
def Obligations.HoldAndResumeByHoldState : Prop :=
  ∀ (s : State) (tag : Byte), s.LinkReady →
    let h := s.hold
    let into (u : State) (record : Hold) : State := State.post { u with hold := record } (.holdEvent record)
    let holds (mode : Byte) (u : State) (body : List Byte) : Prop :=
      exec (.hold tag mode) s = .next (u.replied 0x11#8 tag .ok body)
    let resumes (u : State) (status : Status) (body : List Byte) : Prop :=
      exec (.resume tag) s = .next (u.replied 0x12#8 tag status body)
    let now : Hold := { h with state := .held, mode := some .now, cause := some .request }
    let waits : Hold := { h with state := .holdPending, mode := some .endOfBurst, cause := some .request }
    let resuming : Hold := { h with state := .resuming, mode := none, cause := some .request }
    (∀ mode : Byte, 1 < mode.toNat → exec (.hold tag mode) s = .next (s.replied 0x11#8 tag .badArgument)) ∧
    (h.storm = true → resumes s .stormActive []) ∧
    match h.state with
    | .running =>
      holds 0#8 (into s now).cutAll [2#8] ∧
      (s.appliedCount ≠ 0 → holds 1#8 (into s waits) [1#8]) ∧
      (s.appliedCount = 0 → holds 1#8 (into (into s waits) { waits with state := .held }) [2#8]) ∧
      (h.storm = false → resumes s .wrongState [])
    | .holdPending =>
      holds 0#8 (into s now).cutAll [2#8] ∧ holds 1#8 s [1#8] ∧
      (h.storm = false → resumes (into s resuming).cutAll .ok [3#8])
    | .held => holds 0#8 s [2#8] ∧ holds 1#8 s [2#8] ∧ (h.storm = false → resumes (into s resuming) .ok [3#8])
    | .resuming =>
      holds 0#8 (into s now) [2#8] ∧ holds 1#8 (into s { now with mode := some .endOfBurst }) [2#8] ∧
      (h.storm = false → resumes s .ok [3#8])

/-- The read of STORM (R160): once per round, at its start and before the exchange with line circuit 0, an assertion with
the flag clear acts as HOLD NOW with cause STORM in every hold state, a deassertion with the flag set clears the flag alone,
and a level equal to the flag changes nothing. That line circuit 0's command is composed after the read is log 4; that a
level given where no read is due changes nothing is log 5. -/
def Obligations.StormReadsMoveTheFlag : Prop :=
  ∀ s : State,
    (s.scan.position = 0 → s.scan.stormDue = true →
      let into (record : Hold) : State := State.post { s with hold := record } (.holdEvent record)
      let ends (u : State) : State :=
        State.arbitrate { u with scan := { position := 0, word := commandWord 0 (u.line 0), stormDue := false } }
      (s.hold.storm = false →
        exec .stormAssertion s = .next
          (ends (into { state := .held, mode := some .now, cause := some .storm, storm := true }).cutAll) ∧
        exec .stormDeassertion s = .next (ends s)) ∧
      (s.hold.storm = true →
        exec .stormAssertion s = .next (ends s) ∧
        exec .stormDeassertion s = .next (ends (into { s.hold with storm := false })))) ∧
    (s.scan.position ≠ 0 ∨ s.scan.stormDue = false →
      exec .stormAssertion s = .next s ∧ exec .stormDeassertion s = .next s)

/-- The removal of every applied code (R107, R108): no entry and no line keeps one, a line that carried one is blanked
for two arrivals, and jobs, cells and queue stand. -/
def Obligations.CutRemovesEveryCode : Prop :=
  ∀ s : State, s.PlacementsInv → s.JobsInv →
    (∀ e ∈ s.sched.placements, ∀ j ∈ s.job e.job, (s.line j.line).applied = e.applied) →
    (∀ n, (s.line n).applied.isSome → ∃ e ∈ s.sched.placements, ∃ j ∈ s.job e.job, j.line = n) →
    let t := s.cutAll
    t.sched.placements = s.sched.placements.map (fun e => { e with applied := none }) ∧
    (∀ n, t.line n =
      if (s.line n).applied.isSome then { s.line n with applied := none, blanking := 2 } else s.line n) ∧
    t.sched.jobs = s.sched.jobs ∧ t.sched.cells = s.sched.cells ∧ t.sched.queue = s.sched.queue ∧
    t.channels = s.channels ∧
    t.hold = (if s.hold.state = .holdPending ∧ s.appliedCount ≠ 0 then { s.hold with state := .held } else s.hold)

/-! ## Masks, summary flags and soft reset -/

/-- MASK_SET (R172). A byte with bits 5 to 7 is refused; otherwise the masks are replaced, with the queue as it is, and
govern the postings that follow. Every class is masked after power-on reset; soft reset keeps the masks. -/
def Obligations.MaskSetReplacesTheMasks : Prop :=
  (∀ (s : State) (tag masks : Byte), s.LinkReady →
    (32 ≤ masks.toNat → exec (.maskSet tag masks) s = .next (s.replied 0x13#8 tag .badArgument)) ∧
    (masks.toNat < 32 →
      exec (.maskSet tag masks) s = .next
        (State.replied { s with port := { s.port with masks := masks } } 0x13#8 tag .ok [masks]))) ∧
  (∀ (s : State) (i : Indication),
    let bit : Option Nat :=
      match i with
      | .seize _ _ | .digit _ _ _ _ | .clear _ _ => some 0
      | .answer _ _ _ _ | .jobEnd _ _ _ _ _ _ => some 1
      | .revertEvent _ => some 2
      | .lineFault _ _ _ | .lineRecovered _ _ | .leakChange _ _ _ | .generatorEvent _ _ _ _ => some 3
      | .holdEvent _ => some 4
      | .started _ _ _ _ _ | .overrunNotice _ _ => none
    (∀ k, bit = some k → s.port.masks.getLsbD k = true → (s.post i).port.indications = s.port.indications) ∧
    ((bit = none ∨ ∃ k, bit = some k ∧ s.port.masks.getLsbD k = false) → s.port.indications.length < 32 →
      (s.post i).port.indications = s.port.indications ++ [i])) ∧
  (∀ rate1 rate0 storm channels, (State.powerOn rate1 rate0 storm channels).port.masks = 0x1F#8) ∧
  (∀ (s : State) (lines : List LineNo), (s.softReset lines).port.masks = s.port.masks)

/-- SUMMARY_READ and SUMMARY_ACK (R173), and the acceptance of SOFT_RESET (R176). That the overrun flag is sent as 1 where set
and 0 otherwise, and bits 2 to 7 of the part flags as 0, is the model's choice (logs 22, 29). -/
def Obligations.SummaryFlagsAreReadAndCleared : Prop :=
  ∀ (s : State) (tag : Byte), s.LinkReady →
    exec (.summaryRead tag) s = .next
      (s.replied 0x14#8 tag .ok
        ((List.finRange 8).map (fun i : Fin 8 =>
            s.port.lineFlags.get (Fin.ofNat 16 (2 * i.val + 1)) ++ s.port.lineFlags.get (Fin.ofNat 16 (2 * i.val))) ++
          [s.port.partFlags.setWidth 8, flagByte s.port.overrun, toByte s.port.indications.length])) ∧
    (∀ (n : LineNo) (classes : BitVec 4), ∃ flags,
      (∀ m, flags.get m = if m = n then s.port.lineFlags.get m &&& ~~~classes else s.port.lineFlags.get m) ∧
      exec (.summaryAck tag (toByte n.val) (classes.setWidth 8)) s = .next
        (State.replied { s with port := { s.port with lineFlags := flags } } 0x15#8 tag .ok)) ∧
    (∀ classes : BitVec 2,
      exec (.summaryAck tag 16#8 (classes.setWidth 8)) s = .next
        (State.replied { s with port := { s.port with partFlags := s.port.partFlags &&& ~~~classes } } 0x15#8 tag
          .ok)) ∧
    (∀ target classes : Byte,
      (16 < target.toNat ∨ target.toNat = 16 ∧ 4 ≤ classes.toNat ∨ target.toNat < 16 ∧ 16 ≤ classes.toNat) →
      exec (.summaryAck tag target classes) s = .next (s.replied 0x15#8 tag .badArgument)) ∧
    exec (.softReset tag) s = .next (s.replied 0x17#8 tag .ok)

/-- The soft reset, taken at the completion of its reply (R176): buffered requests are marked, the Indication Queue and
the flags emptied before any LEAK_CHANGE, and every block takes its soft-reset values (R8, R26, R42, R43, R71, R91, R112,
R113, R119, R142, R156, R164), while what the rules keep is kept. The LEAKY flag follows the profile then active, and each
change of it posts one LEAK_CHANGE and sets the line's PLANT flag (R33, R42, R171); in which order the lines come is the
command's operand (log 9), and the next request is dispatched before the next frame is begun (log 28). -/
def Obligations.SoftResetKeepsWhatTheRulesKeep : Prop :=
  ∀ (s : State) (lines : List LineNo) (frame : List Byte) (r : Reply),
    s.port.transmitter = some { source := .reply, frame := frame } → s.port.reply = some r → r.type = 0x17#8 →
    r.status = .ok →
    let active (n : LineNo) : Option Profile :=
      if (s.line n).staged.isSome then (s.line n).staged else (s.line n).active
    let b (n : LineNo) : Nat := ((s.line n).baseline + 8) / 16
    let leaky (n : LineNo) : Bool :=
      match active n with
      | none => false
      | some p =>
        if p.leakLimit < b n then true else if b n + 4 ≤ p.leakLimit then false else (s.line n).leaky
    let changed (n : LineNo) : Bool := leaky n != (s.line n).leaky
    ∃ u : State,
      exec (.transmissionComplete lines) s = .next u.dispatch.arbitrate ∧
      u.port.requests = s.port.requests.map (fun q => { q with marked := true }) ∧ u.port.reply = none ∧
      u.port.startUp = some .soft ∧ u.port.masks = s.port.masks ∧ u.port.rate = s.port.rate ∧
      u.port.receiver = s.port.receiver ∧ u.port.busy = s.port.busy ∧ u.port.overrun = false ∧
      u.port.partFlags = 0#2 ∧ (∀ n, u.port.lineFlags.get n = if changed n then 0b1000#4 else 0#4) ∧
      u.port.indications.Perm
        (if s.port.masks.getLsbD 3 then []
         else ((List.finRange 16).filter changed).map fun n => .leakChange n (leaky n) (b n)) ∧
      (∀ id, u.job id = none) ∧ u.sched.queue = [] ∧ u.sched.placements = [] ∧ (∀ c k, u.cell c k = 0) ∧
      u.sched.arrivalCounter = 0 ∧ u.sched.placementCounter = 0 ∧ u.sched.position = 0 ∧
      u.cadence = s.cadence ∧ u.scan = s.scan ∧ u.pending = s.pending ∧
      u.hold =
        (if s.hold.storm then { state := .held, mode := some .now, cause := some .storm, storm := true }
         else { state := .running, mode := none, cause := none, storm := false }) ∧
      (∀ c, u.channel c =
        { s.channel c with
          state := if (s.channel c).state = .absent then .absent else .off
          derate := 0, recovery := 0, overloadMark := false, idleCount := 0, startTimer := none,
          entryMark := false }) ∧
      ∀ n, u.line n =
        { s.line n with
          active := active n, staged := none, missCount := 0, goodCount := 0
          state :=
            if (s.line n).state = .unconfigured then .unconfigured
            else if (s.line n).state = .blocked then .blocked else .idle
          leaky := leaky n, applied := none
          hook := { offHook := false, disagreement := 0, breakCount := 0, makeCount := 0, pulseCount := 0 }
          blanking := 0, tripScore := 0
          window := { phase := .none, kind := none, arrivals := 0, tipSum := 0, ringSum := 0 }
          seizeResult := none, park := none, revert := none, answered := none }

/-! ## Sample arrivals

A row named by an outcome carries the Scan Bus reply that can lead to it; the line of an arrival is the position of the
round (log 2, 3). `endExchange` begins the next exchange, and after line circuit 15 hands over the presence set (log 4, 6):
the first statement says what it leaves. -/

/-- Every arrival (R21 to R26): the record of its line circuit by a good reply or a miss, the next exchange with the
command its line then holds, the handover after line circuit 15 and the next round's read of STORM; every other line
stands (R21: the round; R27), and so does every other line's job but for the renumbering of R74. The model's readings
in it: the next command word is composed at the end of the exchange (log 4), STARTED stands behind what the arrival
posts (log 6), and a soft reset taken within the exchange with line circuit 15 is handed the set at that exchange's
end (log 21). -/
def Obligations.ArrivalKeepsScanRecord : Prop :=
  ∀ (s : State) (reply : BitVec 26),
    let n := s.scan.position
    let l := s.line n
    let good := reply.getLsbD 25 = false ∧ ((List.range 25).countP fun i => reply.getLsbD i) % 2 = 1
    (∃ t,
      exec (.sampleArrival reply) s = .next t ∧
      (good →
        (t.line n).lastGood =
          { loop := (reply.extractLsb' 17 8).toNat, tip := (reply.extractLsb' 9 8).toNat,
            ring := (reply.extractLsb' 1 8).toNat } ∧
        (t.line n).present = true ∧ (t.line n).missCount = 0 ∧ (t.line n).goodCount = min 50 (l.goodCount + 1)) ∧
      (¬ good →
        (t.line n).lastGood = l.lastGood ∧ (t.line n).present = false ∧
        (t.line n).missCount = min 3 (l.missCount + 1) ∧ (t.line n).goodCount = 0) ∧
      t.scan.position = n + 1 ∧ t.scan.word = commandWord (n + 1) (t.line (n + 1)) ∧
      t.scan.stormDue = decide (n = 15) ∧
      (∀ m, m ≠ n → t.line m = s.line m) ∧ t.cadence = s.cadence ∧ t.channels = s.channels ∧
      t.sched.position = s.sched.position ∧ t.pending = s.pending ∧
      (∀ id j, s.job id = some j → j.line ≠ n → t.job id = some j ∨ t.job id = some (s.afterCreation j)) ∧
      t.port.receiver = s.port.receiver ∧ t.port.requests = s.port.requests ∧ t.port.busy = s.port.busy ∧
      t.port.reply = s.port.reply ∧ t.port.masks = s.port.masks ∧ t.port.rate = s.port.rate ∧
      t.port.startUp = (if n = 15 then none else s.port.startUp)) ∧
    (n = 15 → ∀ cause, s.port.startUp = some cause →
      ∃ (u : State) (presence : BitVec 16),
        exec (.started reply) s = .next
          (State.arbitrate
            (State.post { u with scan := { position := 0, word := commandWord 0 (u.line 0), stormDue := true } }
              (.started cause presence
                ((List.finRange 4).map fun c =>
                  { state := (s.channel c).state, grdy := (s.channel c).grdy, govl := (s.channel c).govl })
                u.hold.state u.hold.storm))) ∧
        (∀ m : LineNo, presence.getLsbD m.val = (u.line m).present) ∧ ((u.line 15).present = true ↔ good) ∧
        (∀ m, m ≠ 15 → u.line m = s.line m) ∧ u.channels = s.channels ∧ u.port.startUp = none)

/-- A third or later miss in a row is a scan fault on a configured line outside FAULT (R24, R68); the fiftieth good reply in
a row returns a line in FAULT to IDLE (R25, R69), and no other reply moves one in FAULT or UNCONFIGURED. In BLOCKED a good
reply, also one with a recovery mark, and a first or second miss change the line's Scan Bus record and nothing else (R25,
R29, R65). What `takeOut` and `enterIdle` do, other statements say. -/
def Obligations.ScanFaultAndRecovery : Prop :=
  ∀ (s : State) (reply : BitVec 26),
    let n := s.scan.position
    let l := s.line n
    let ends (u : State) : State := State.arbitrate (State.endExchange u n)
    let good : Line :=
      { l with
        lastGood := replySample reply, present := true, missCount := 0, goodCount := min 50 (l.goodCount + 1) }
    let missed : Line := { l with present := false, missCount := min 3 (l.missCount + 1), goodCount := 0 }
    (replyGood reply = false → 2 ≤ l.missCount → l.state ≠ .unconfigured → l.state ≠ .fault →
      exec (.scanFault reply) s = .next
        (ends (State.takeOut (State.post (s.setLine n missed) (.lineFault n .scan l.state)) n .fault .lineFault))) ∧
    (replyGood reply = true → l.goodCount = 49 → l.state = .fault →
      exec (.faultRecovery reply) s = .next
        (ends (State.enterIdle (State.post (s.setLine n good) (.lineRecovered n .fault)) n))) ∧
    ((l.state = .unconfigured ∨ l.state = .fault) → replyGood reply = false →
      exec (.sampleArrival reply) s = .next (ends (s.setLine n missed))) ∧
    ((l.state = .unconfigured ∨ l.state = .fault ∧ l.goodCount ≠ 49) → replyGood reply = true →
      exec (.sampleArrival reply) s = .next (ends (s.setLine n good))) ∧
    (l.state = .blocked →
      (replyGood reply = true →
        exec (.sampleArrival reply) s = .next (ends (s.setLine n good)) ∧
        exec (.faultRecovery reply) s = .next (ends (s.setLine n good))) ∧
      (replyGood reply = false → l.missCount < 2 →
        exec (.sampleArrival reply) s = .next (ends (s.setLine n missed))))

/-- A line in IDLE (R30, R34, R57): on-hook samples teach the baseline, a first off-hook sample as well, and the second in a
row seizes the line, which enters SEIZE_ID with a window of kind SEIZE (R44). -/
def Obligations.SeizureTakesTwoSamples : Prop :=
  ∀ (s : State) (reply : BitVec 26) (p : Profile),
    let n := s.scan.position
    let l := s.line n
    let sample := replySample reply
    let threshold := min 255 ((l.baseline + 8) / 16 + p.hookMargin)
    let ends (u : State) : State := State.arbitrate (State.endExchange u n)
    let heard (hook : HookFilter) : Line :=
      { l with
        lastGood := sample, present := true, missCount := 0, goodCount := min 50 (l.goodCount + 1), hook := hook }
    let learnt (hook : HookFilter) : State :=
      ends (State.updateLeaky
        (s.setLine n { heard hook with baseline := l.baseline - l.baseline / 16 + sample.loop }) n)
    l.state = .idle → l.active = some p → l.hook.offHook = false → l.hook.breakCount = 0 → replyGood reply = true →
    (sample.loop < threshold → exec (.sampleArrival reply) s = .next (learnt { l.hook with disagreement := 0 })) ∧
    (threshold ≤ sample.loop →
      (l.hook.disagreement = 0 → exec (.sampleArrival reply) s = .next (learnt { l.hook with disagreement := 1 })) ∧
      (l.hook.disagreement = 1 →
        exec (.seizure reply) s = .next
          (ends (s.setLine n
            { heard { l.hook with offHook := true, disagreement := 0, breakCount := 0, makeCount := 2 } with
              state := .seizeId
              window := { phase := .settling, kind := some .seize, arrivals := 0, tipSum := 0, ringSum := 0 } }))))

/-- The runs of the hook filter (R34, R36, R41) and dialling in SEIZED (R37 to R39). A change of the confirmed state takes
two samples in a row; a break begins with n = 2 and make count 0, and n and the make count count on, the make count to 30;
a held sample leaves the filter as it is; breaks below the clear time are ignored outside SEIZED. In SEIZED, a break that
ends at up to 12 counts adds a pulse, a longer one below the clear time abandons a digit in progress, and a make count of
30 reports the digit. A make count of 0 or 1 stands only after a restart off-hook; that it runs on from there with each
off-hook sample is the model's reading, from the worked case of section 2.6 (log 16). -/
def Obligations.DialPulsesMakeDigits : Prop :=
  (∀ (s : State) (reply : BitVec 26) (p : Profile),
    let n := s.scan.position
    let l := s.line n
    let sample := replySample reply
    let threshold := min 255 ((l.baseline + 8) / 16 + p.hookMargin)
    let ends (u : State) : State := State.arbitrate (State.endExchange u n)
    let settles (hook : HookFilter) : Prop :=
      exec (.sampleArrival reply) s = .next
        (ends (s.setLine n
          { l with
            lastGood := sample, present := true, missCount := 0, goodCount := min 50 (l.goodCount + 1), hook := hook }))
    l.state ∈ [.seized, .talk, .revertWait, .revertTalk, .linger, .lockout] → l.active = some p →
    replyGood reply = true →
    (sample.loop < threshold →
      (l.hook.offHook = true → l.hook.disagreement = 0 → settles { l.hook with disagreement := 1 }) ∧
      (l.hook.offHook = true → l.hook.disagreement = 1 →
        settles { l.hook with offHook := false, disagreement := 0, breakCount := 2, makeCount := 0 }) ∧
      (l.hook.offHook = false → 1 ≤ l.hook.breakCount → l.hook.breakCount + 1 < p.clearTime →
        settles { l.hook with disagreement := 0, breakCount := l.hook.breakCount + 1 })) ∧
    (threshold ≤ sample.loop →
      (l.hook.offHook = false → l.hook.disagreement = 0 → settles { l.hook with disagreement := 1 }) ∧
      (l.hook.offHook = false → l.hook.disagreement = 1 → l.state ≠ .seized →
        settles { l.hook with offHook := true, disagreement := 0, breakCount := 0, makeCount := 2 }) ∧
      (l.hook.offHook = true → l.hook.makeCount < 30 →
        (l.hook.makeCount = 29 → l.state = .seized → l.hook.pulseCount = 0) →
        settles { l.hook with disagreement := 0, makeCount := l.hook.makeCount + 1 }) ∧
      (l.hook.offHook = true → l.hook.makeCount = 30 → settles { l.hook with disagreement := 0 }))) ∧
  (∀ (s : State) (reply : BitVec 26),
    let n := s.scan.position
    let l := s.line n
    l.state ∈ [.idle, .seized, .talk, .revertWait, .revertTalk, .linger, .lockout] → replyGood reply = false →
    l.missCount < 2 →
    exec (.sampleArrival reply) s = .next
      (State.arbitrate (State.endExchange
        (s.setLine n { l with present := false, missCount := l.missCount + 1, goodCount := 0 }) n))) ∧
  (∀ (s : State) (reply : BitVec 26) (p : Profile),
    let n := s.scan.position
    let l := s.line n
    let sample := replySample reply
    let pulses := l.hook.pulseCount
    let ends (u : State) : State := State.arbitrate (State.endExchange u n)
    let heard (hook : HookFilter) : Line :=
      { l with
        lastGood := sample, present := true, missCount := 0, goodCount := min 50 (l.goodCount + 1), hook := hook }
    let made (pulses : Nat) : HookFilter :=
      { offHook := true, disagreement := 0, breakCount := 0, makeCount := 2, pulseCount := pulses }
    l.state = .seized → l.active = some p → replyGood reply = true →
    min 255 ((l.baseline + 8) / 16 + p.hookMargin) ≤ sample.loop →
    (l.hook.offHook = false → l.hook.disagreement = 1 →
      (l.hook.breakCount ≤ 12 →
        exec (.sampleArrival reply) s = .next (ends (s.setLine n (heard (made (min 15 (pulses + 1))))))) ∧
      (12 < l.hook.breakCount → l.hook.breakCount < p.clearTime → 0 < pulses →
        exec (.sampleArrival reply) s = .next
          (ends (State.post (s.setLine n (heard (made 0))) (.digit n none pulses true)))) ∧
      (12 < l.hook.breakCount → (pulses = 0 ∨ p.clearTime ≤ l.hook.breakCount) →
        exec (.sampleArrival reply) s = .next (ends (s.setLine n (heard (made pulses)))))) ∧
    (l.hook.offHook = true → l.hook.makeCount = 29 → 0 < pulses →
      exec (.digit reply) s = .next
        (ends (State.post
          (s.setLine n (heard { l.hook with disagreement := 0, makeCount := 30, pulseCount := 0 }))
          (if pulses ≤ 10 then .digit n (some (Fin.ofNat 10 pulses)) pulses false else .digit n none pulses true)))))

/-- A break that reaches the clear time, by the line state (R40, R59, R64, R131, R138): CLEAR, the end of a reverting
conversation, or the receiver's return, each into IDLE; in REVERT_WAIT the caller's hang-up, which creates the REVERT
job of R131, with the renumbering of R74 first where the counter is at its limit. The sample teaches the baseline of
the line as it then is (R30). -/
def Obligations.BreakReachesClearTime : Prop :=
  ∀ (s : State) (reply : BitVec 26) (p : Profile),
    let n := s.scan.position
    let l := s.line n
    let sample := replySample reply
    let ends (u : State) : State := State.arbitrate (State.endExchange u n)
    let heard : Line :=
      { l with
        lastGood := sample, present := true, missCount := 0, goodCount := min 50 (l.goodCount + 1),
        hook := { l.hook with disagreement := 0, breakCount := p.clearTime } }
    let learnt (u : State) : State :=
      ends (State.updateLeaky
        (u.setLine n { u.line n with baseline := l.baseline - l.baseline / 16 + sample.loop }) n)
    let reported (left : Line) (i : Indication) : State := State.post (s.setLine n left) i
    l.active = some p → replyGood reply = true → sample.loop < min 255 ((l.baseline + 8) / 16 + p.hookMargin) →
    l.hook.offHook = false → 1 ≤ l.hook.breakCount → l.hook.breakCount + 1 = p.clearTime →
    (l.state = .seized ∨ l.state = .talk ∨ l.state = .linger →
      exec (.clear reply) s = .next (learnt ((reported heard (.clear n l.state)).enterIdle n))) ∧
    (l.state = .lockout →
      exec (.receiverReturn reply) s = .next (learnt ((reported heard (.lineRecovered n .lockout)).enterIdle n))) ∧
    (∀ c, l.revert = some c →
      let event (kind : RevertEventKind) (cause : Option EndCause) (duration : Option Nat) (job : Option JobId) :
          Indication :=
        .revertEvent
          { line := n, event := kind, caller := c.caller, called := c.called, ringBack := c.ringBack,
            retries := c.retries, cause := cause, duration := duration, job := job }
      (l.state = .revertTalk →
        exec (.revertCleared reply) s = .next
          (learnt ((reported { heard with revert := none }
            (event .ended (some .cleared) (some (c.talkSteps / 4)) none)).enterIdle n))) ∧
      (l.state = .revertWait →
        ∀ calling, p.party c.caller = some calling → ∀ callee, p.party c.called = some callee →
        let codes := if c.ringBack then [callee.code, calling.code] else [callee.code]
        ((∃ q ∈ codes, (s.channel q.chan).state = .absent ∨ (s.channel q.chan).state = .failed) →
          exec (.callerHangUp reply) s = .next
            (learnt ((reported { heard with revert := none }
              (event .ended (some .genFailed) none none)).enterIdle n))) ∧
        ((∀ q ∈ codes, (s.channel q.chan).state ≠ .absent ∧ (s.channel q.chan).state ≠ .failed) →
          ∀ id, s.job id = none → (∀ lower, lower < id → s.job lower ≠ none) →
          ∃ u : State,
            exec (.callerHangUp reply) s = .next (learnt u) ∧
            u.job id = some
              { line := n, kind := .revert, target := some c.called, codes := codes, codeIndex := 0,
                remaining := p.ringTimeout, rung := 0, arrival := s.nextArrival, phase := .waiting,
                skips := 0, starved := false, waitingSteps := 0, rang := false } ∧
            (∀ other, other ≠ id → u.job other = (s.job other).map s.afterCreation) ∧
            (∃ before behind, s.sched.queue = before ++ behind ∧ u.sched.queue = before ++ id :: behind) ∧
            u.sched.arrivalCounter = s.nextArrival + 1 ∧ u.sched.cells = s.sched.cells ∧
            u.sched.placements = s.sched.placements ∧
            u.line n =
              { heard with
                state := .ringing, applied := none, blanking := 0, tripScore := 0,
                revert := some { c with job := some id } } ∧
            s.SameOutside n u ∧ u.channels = s.channels ∧ u.hold = s.hold ∧
            u.port = (s.post (event .ringing none none (some id))).port)))

/-- An ID window (R45, R46, R49, R58, R120, R121, R134 to R137): arrivals 5 to 20 are summed, the last good sample standing
in for a miss; the twentieth ends the window. A SEIZE window leads to SEIZED. An ANSWER window leads to TALK, or for a
REVERT job to a caller return, the end of the retries, or the answered call. The hook filter restarts off-hook (R50). -/
def Obligations.WindowEndsAtTwentyArrivals : Prop :=
  ∀ (s : State) (reply : BitVec 26) (p : Profile),
    let n := s.scan.position
    let l := s.line n
    let w := l.window
    let sample := if replyGood reply then replySample reply else l.lastGood
    let ends (u : State) : State := State.arbitrate (State.endExchange u n)
    let heard : Line :=
      if replyGood reply then
        { l with lastGood := sample, present := true, missCount := 0, goodCount := min 50 (l.goodCount + 1) }
      else { l with present := false, missCount := l.missCount + 1, goodCount := 0 }
    let result := classify p.parties ((w.tipSum + sample.tip) / 16) ((w.ringSum + sample.ring) / 16)
    let into (state : LineState) : Line :=
      { heard with
        state := state, answered := none,
        window := { phase := .none, kind := none, arrivals := 0, tipSum := 0, ringSum := 0 }
        hook := { offHook := true, disagreement := 0, breakCount := 0, makeCount := 0, pulseCount := 0 } }
    let reported (left : Line) (i : Indication) : State := ends (State.post (s.setLine n left) i)
    l.active = some p → (replyGood reply = true ∨ l.missCount < 2) → (l.state = .seizeId ∨ l.state = .answerId) →
    (w.arrivals < 4 →
      exec (.sampleArrival reply) s = .next
        (ends (s.setLine n { heard with window := { w with arrivals := w.arrivals + 1 } }))) ∧
    (4 ≤ w.arrivals → w.arrivals < 19 →
      exec (.sampleArrival reply) s = .next
        (ends (s.setLine n
          { heard with
            window :=
              { w with
                phase := .accumulating, arrivals := w.arrivals + 1, tipSum := w.tipSum + sample.tip,
                ringSum := w.ringSum + sample.ring } }))) ∧
    (w.arrivals = 19 →
      (w.kind = some .seize →
        exec (.idWindowEnd reply) s = .next
          (reported { into .seized with seizeResult := some result } (.seize n result))) ∧
      (w.kind = some .answer → ∀ a, l.answered = some a →
        (a.kind ≠ .revert →
          exec (.idWindowEnd reply) s = .next
            (reported (into .talk)
              (.answer a n result
                (match a.target with
                 | some d => decide (result.outcome = .party ∧ result.digit = some d)
                 | none => false)))) ∧
        (a.kind = .revert → ∀ c, l.revert = some c →
          let event (kind : RevertEventKind) (retries : Nat) (cause : Option EndCause) (matched : Option Bool) :
              Indication :=
            .revertEvent
              { line := n, event := kind, caller := c.caller, called := c.called, ringBack := c.ringBack,
                retries := retries, cause := cause, job := some a.job, result := some result, matched := matched }
          (result.outcome = .party → result.digit = some c.caller →
            (c.retries < 3 →
              exec (.idWindowEnd reply) s = .next
                (reported
                  { into .revertWait with
                    revert := some { c with retries := c.retries + 1, waitSteps := p.revertWait } }
                  (event .callerReturned (c.retries + 1) none none))) ∧
            (3 ≤ c.retries →
              exec (.idWindowEnd reply) s = .next
                (reported { into .seized with revert := none }
                  (event .ended c.retries (some .retriesExhausted) none)))) ∧
          (¬ (result.outcome = .party ∧ result.digit = some c.caller) →
            exec (.idWindowEnd reply) s = .next
              (reported { into .revertTalk with revert := some { c with talkSteps := 0 } }
                (event .answered c.retries none
                  (some (decide (result.outcome = .party ∧ result.digit = some c.called)))))))))

/-- A line in RINGING (R30, R107, R114 to R118): blanked arrivals only count down, others move the trip score by one against
the threshold in force, and a score of 4 trips the line: ANSWER_ID with a window of kind ANSWER and the answered-job
record, the job ended ANSWERED, a HELD job beneath it ended, the code removed. What is posted is said whole: where the
tripped job's code was the last applied in HOLD_PENDING, the hold becomes HELD with its HOLD_EVENT (R106, R125, R159); the
HELD job's end PREEMPTED is reported by JOB_END or, for a REVERT job, by the end of its call (R82, R118, R139); nothing
else. That the HOLD_EVENT stands first is the model's reading (log 24). -/
def Obligations.TripEndsTheRinging : Prop :=
  ∀ (s : State) (reply : BitVec 26),
    let n := s.scan.position
    let l := s.line n
    let sample := replySample reply
    let threshold := match l.applied with | some q => l.onThreshold q | none => l.tripThreshold
    let ends (u : State) : State := State.arbitrate (State.endExchange u n)
    let heard : Line :=
      { l with
        lastGood := sample, present := true, missCount := 0, goodCount := min 50 (l.goodCount + 1) }
    l.state = .ringing →
    (0 < l.blanking → replyGood reply = true →
      exec (.sampleArrival reply) s = .next (ends (s.setLine n { heard with blanking := l.blanking - 1 }))) ∧
    (replyGood reply = false → l.missCount < 2 →
      exec (.sampleArrival reply) s = .next
        (ends (s.setLine n
          { l with
            present := false, missCount := l.missCount + 1, goodCount := 0, blanking := l.blanking - 1 }))) ∧
    (l.blanking = 0 → replyGood reply = true →
      (sample.loop < threshold →
        exec (.sampleArrival reply) s = .next
          (if l.applied = none ∧ l.tripScore ≤ 1 then
            ends (State.updateLeaky
              (s.setLine n { heard with tripScore := 0, baseline := l.baseline - l.baseline / 16 + sample.loop }) n)
          else ends (s.setLine n { heard with tripScore := l.tripScore - 1 }))) ∧
      (threshold ≤ sample.loop →
        (l.tripScore < 3 →
          exec (.sampleArrival reply) s = .next
            (ends (s.setLine n { heard with tripScore := l.tripScore + 1 }))) ∧
        (3 ≤ l.tripScore → s.RingPlanInv → ∀ id j, s.job id = some j → j.line = n → j.isHeld = false →
          ∃ u : State,
            exec (.trip reply) s = .next (ends u) ∧
            u.line n =
              { heard with
                state := .answerId, applied := none, blanking := 0, tripScore := 0
                window := { phase := .settling, kind := some .answer, arrivals := 0, tipSum := 0, ringSum := 0 }
                answered := some { job := id, kind := j.kind, target := j.target }
                revert := if j.kind = .revert then l.revert.map (fun c => { c with job := none }) else none } ∧
            (∀ other x, s.job other = some x →
              if x.line = n then u.job other = none ∧ other ∉ u.sched.queue else u.job other = some x) ∧
            u.sched.placements = s.sched.placements.filter (fun e => e.job != id) ∧
            (∀ c k, u.cell c k =
              s.cell c k - (match j.phase with | .placed o _ => s.demand j o c k | .waiting | .held => 0)) ∧
            s.SameOutside n u ∧ u.channels = s.channels ∧
            let lastBurst : Prop :=
              s.hold.state = .holdPending ∧ (∃ e ∈ s.sched.placements, e.job = id ∧ e.applied.isSome = true) ∧
                ∀ e ∈ s.sched.placements, e.applied.isSome = true → e.job = id
            let hold : Hold := if lastBurst then { s.hold with state := .held } else s.hold
            let holds : List Indication := if lastBurst then [.holdEvent hold] else []
            let preempted : List Indication :=
              match s.heldJob n with
              | none => []
              | some held =>
                match s.job held with
                | none => []
                | some h =>
                  if h.kind = .revert then
                    match l.revert with
                    | none => []
                    | some c =>
                      [.revertEvent
                        { line := n, event := .ended, caller := c.caller, called := c.called, ringBack := c.ringBack,
                          retries := c.retries, cause := some .preempted, job := some held, rung := some h.rung,
                          remaining := some h.remaining }]
                  else [.jobEnd held n h.kind .preempted h.rung h.remaining]
            u.hold = hold ∧ u.port = ((holds ++ preempted).foldl State.post s).port)))

/-! ## Step boundaries

A row named by an outcome carries the boundary that can lead to it, with the order of its work where the spec leaves it
open (log 2, 7, 8). -/

/-- Every step boundary, in every order (R92): the position advances by one step, Hold Control leaves RESUMING (R162), and
no job is created; the Scan Bus records, baselines, cadences and the host's side of the port stand. -/
def Obligations.StepBoundaryAdvances : Prop :=
  ∀ (s : State) (order : BoundaryOrder), ∃ t,
    exec (.stepBoundary order) s = .next t ∧ t.sched.position = s.sched.position + 1 ∧
    (s.hold.state = .resuming →
      t.hold.state = .running ∧ t.hold.mode = none ∧ t.hold.cause = some .request ∧ t.port.partFlags.getLsbD 1 = true) ∧
    (s.hold.state = .running ∨ s.hold.state = .held → t.hold = s.hold) ∧
    t.cadence = s.cadence ∧ t.scan = s.scan ∧ t.pending = s.pending ∧
    t.sched.arrivalCounter = s.sched.arrivalCounter ∧ (∀ id, s.job id = none → t.job id = none) ∧
    (∀ n,
      (t.line n).lastGood = (s.line n).lastGood ∧ (t.line n).present = (s.line n).present ∧
      (t.line n).missCount = (s.line n).missCount ∧ (t.line n).goodCount = (s.line n).goodCount ∧
      (t.line n).baseline = (s.line n).baseline ∧ (t.line n).seizeResult = (s.line n).seizeResult) ∧
    (∀ c,
      (t.channel c).nominal = (s.channel c).nominal ∧ (t.channel c).grdy = (s.channel c).grdy ∧
      (t.channel c).govl = (s.channel c).govl ∧ (t.channel c).entryMark = false) ∧
    t.port.receiver = s.port.receiver ∧ t.port.requests = s.port.requests ∧ t.port.busy = s.port.busy ∧
    t.port.reply = s.port.reply ∧ t.port.masks = s.port.masks ∧ t.port.rate = s.port.rate ∧
    t.port.startUp = s.port.startUp

/-- The demand of a job (R95) is the largest load of a code of its list on that channel whose pattern is ON at the step;
the load of a code (R3) counts every bell of the line it sounds; the effective budget of a channel (R96). -/
def Obligations.DemandAndBudget : Prop :=
  (∀ (s : State) (j : Job) (o : Pos) (c : Chan) (k : Pos),
    let counts (q : RingCode) : Prop :=
      q ∈ j.codes ∧ q.chan = c ∧
        ∃ b ∈ s.cadence.get q.pattern, b.start ≤ (k - o).val ∧ (k - o).val < b.start + b.length
    (∀ q, counts q → (s.line j.line).codeLoad q ≤ s.demand j o c k) ∧
    (s.demand j o c k = 0 ∨ ∃ q, counts q ∧ s.demand j o c k = (s.line j.line).codeLoad q)) ∧
  (∀ (l : Line) (p : Profile) (q : RingCode), l.active = some p →
    l.codeLoad q =
      ((p.parties.filter fun r => decide (r.code.chan = q.chan ∧ r.code.side = q.side)).map Party.load).sum) ∧
  (∀ ch : Channel, ch.Inv →
    ch.effective ≤ 60 ∧ (ch.state = .absent ∨ ch.state = .failed → ch.effective = 0) ∧
    (ch.state ≠ .absent → ch.state ≠ .failed →
      (ch.derate = 0 → ch.effective = ch.nominal) ∧ (ch.derate = 1 → ch.effective = ch.nominal * 3 / 4) ∧
      (ch.derate = 2 → ch.effective = ch.nominal / 2)))

/-- Placement (R97 to R100, R147). The walk takes the queue from its head, each job on the state the earlier ones left. A job
is not tried while an earlier STARVED job shares a channel with it; else it takes the first offset of P + 1 to P + 24 at
which no cell passes E(c), its demand is committed, and its channels that are OFF are started; at no offset, or with a
channel out of service, it is passed over with one skip more. With the counter at its limit the placement stamps are
renumbered first (R74). At a boundary with no PLACED job, waiting steps are counted while Hold Control is RUNNING (R88),
then comes the walk; the last part says it of the only WAITING job whole. -/
def Obligations.PlacementTakesTheFirstFit : Prop :=
  (∀ (s : State) (starts : List Chan) (id : JobId) (j : Job), s.job id = some j →
    let t := s.tryPlace starts id
    let blocked : Prop :=
      ∃ other k, other ∈ s.sched.queue.takeWhile (· != id) ∧ s.job other = some k ∧ k.starved = true ∧
        ∃ c, k.uses c = true ∧ j.uses c = true
    let fits (o : Pos) : Prop :=
      (∀ c, j.uses c = true → (s.channel c).state ≠ .absent ∧ (s.channel c).state ≠ .failed) ∧
      ∀ c k, s.cell c k + s.demand j o c k ≤ (s.channel c).effective
    let full : Bool := decide (s.sched.placementCounter = 4294967295)
    let placedWith (test : Nat → Bool) : Nat :=
      (List.finRange 32).countP fun other => (s.job other).any fun k => k.stamp.any test
    let stamp := if full then placedWith (fun _ => true) else s.sched.placementCounter
    let renumbered (k : Job) : Job :=
      match k.phase with
      | .placed o m => if full then { k with phase := .placed o (placedWith fun m' => decide (m' < m)) } else k
      | .waiting | .held => k
    (blocked → t = s) ∧
    (¬ blocked → (∀ o, ¬ fits o) →
      t = s.setJob id
        (some { j with skips := min 48 (j.skips + 1), starved := j.starved || decide (47 ≤ j.skips) })) ∧
    (¬ blocked → ∀ i : Fin 24, fits (s.sched.position + 1 + i) →
      (∀ earlier, earlier < i → ¬ fits (s.sched.position + 1 + earlier)) →
      let o := s.sched.position + 1 + i
      t.job id = some { j with phase := .placed o stamp, skips := 0, starved := false } ∧
      (∀ other, other ≠ id → t.job other = (s.job other).map renumbered) ∧
      t.sched.queue = s.sched.queue.filter (· != id) ∧
      t.sched.placements = s.sched.placements ++ [{ job := id, offset := o, begun := false, applied := none }] ∧
      t.sched.placementCounter = stamp + 1 ∧ t.sched.arrivalCounter = s.sched.arrivalCounter ∧
      t.sched.position = s.sched.position ∧ (∀ c k, t.cell c k = s.cell c k + s.demand j o c k) ∧
      t.lines = s.lines ∧ t.hold = s.hold ∧ t.cadence = s.cadence ∧ t.scan = s.scan ∧ t.pending = s.pending ∧
      ∀ c, t.channel c =
          (if j.uses c then
            if (s.channel c).state = .off then
              { s.channel c with state := .starting, startTimer := some 8, idleCount := 0, entryMark := true }
            else { s.channel c with idleCount := 0 }
          else s.channel c) ∧
        (j.uses c = true → (s.channel c).state = .off →
          t.port.partFlags.getLsbD 0 = true ∧
          (s.port.masks.getLsbD 3 = false → s.port.indications.length ≤ 28 →
            .generatorEvent c .starting (s.channel c).derate .start ∈ t.port.indications)))) ∧
  (∀ (s : State) (order : BoundaryOrder), s.Calm → s.sched.placements = [] →
    (∀ id j, s.job id = some j →
      j.offset = none ∧ (s.hold.state = .running → j.isWaiting = true → j.waitingSteps < 479)) →
    (∀ c, (s.channel c).state = .off → (s.channel c).grdy = false ∧ (s.channel c).govl = false) →
    let counted : State :=
      { s with
        sched :=
          { s.sched with
            position := s.sched.position + 1
            jobs := tabulate fun id => (s.job id).map fun j =>
              if s.hold.state = .running ∧ j.isWaiting = true then { j with waitingSteps := j.waitingSteps + 1 }
              else j } }
    let walked := s.sched.queue.foldl (fun m id => m.tryPlace order.starts id) counted
    exec (.stepBoundary order) s = .next
      (State.arbitrate
        { walked with channels := tabulate fun c => { walked.channel c with entryMark := false } })) ∧
  (∀ (s : State) (order : BoundaryOrder) (id : JobId) (j : Job), s.Calm → s.OneWaiting id j →
    s.channelOut j.codes = false → (s.hold.state = .running → j.waitingSteps < 479) →
    s.sched.placementCounter < 4294967295 →
    let fits (o : Pos) : Prop := ∀ c k, s.cell c k + s.demand j o c k ≤ (s.channel c).effective
    let waited := if s.hold.state = .running then j.waitingSteps + 1 else j.waitingSteps
    (∀ i : Fin 24, fits (s.sched.position + 2 + i) → (∀ earlier, earlier < i → ¬ fits (s.sched.position + 2 + earlier)) →
      (∀ c, j.uses c = true → (s.channel c).state = .off →
        (s.channel c).grdy = false ∧ (s.channel c).govl = false) →
      ∃ t,
        exec (.stepBoundary order) s = .next t ∧
        t.job id = some
          { j with
            phase := .placed (s.sched.position + 2 + i) s.sched.placementCounter, skips := 0, starved := false,
            waitingSteps := waited } ∧
        (∀ other, other ≠ id → t.job other = none) ∧ t.sched.queue = [] ∧
        t.sched.placements = [{ job := id, offset := s.sched.position + 2 + i, begun := false, applied := none }] ∧
        t.sched.placementCounter = s.sched.placementCounter + 1 ∧
        (∀ c k, t.cell c k = s.cell c k + s.demand j (s.sched.position + 2 + i) c k) ∧
        t.lines = s.lines ∧ t.hold = s.hold ∧
        (∀ c, t.channel c =
          if j.uses c then
            if (s.channel c).state = .off then
              { s.channel c with state := .starting, startTimer := some 8, idleCount := 0 }
            else { s.channel c with idleCount := 0 }
          else s.channel c)) ∧
    ((∀ o, ¬ fits o) →
      ∃ t,
        exec (.stepBoundary order) s = .next t ∧ exec (.starved order) s = .next t ∧
        t.job id = some
          { j with
            waitingSteps := waited, skips := min 48 (j.skips + 1), starved := j.starved || decide (47 ≤ j.skips) } ∧
        (∀ other, other ≠ id → t.job other = none) ∧ t.sched.queue = [id] ∧ t.sched.placements = [] ∧
        t.sched.cells = s.sched.cells ∧ t.lines = s.lines ∧ t.channels = s.channels ∧ t.hold = s.hold))

/-- Signals asserted already when a placement starts a channel (R144, R147, R149, R151): GRDY brings it to RUNNING and GOVL
is an overload, after the whole of the boundary's work, in either order, which is the command's operand. At derate level 2
the overload fails the channel in either order, and the job that the placement started it for ends GEN_FAILED, with its
line in IDLE. The channel's GENERATOR_EVENTs stand in the queue in the order taken (R155), where the class is not masked and
the boundary leaves room: START, then READY and OVERLOAD with the state and the level after each. -/
def Obligations.SignalsAreTakenAtTheStart : Prop :=
  ∀ (s : State) (order : BoundaryOrder) (id : JobId) (j : Job), s.Calm → s.OneWaiting id j →
    s.channelOut j.codes = false → (s.hold.state = .running → j.waitingSteps < 479) →
    (∃ o, ∀ c k, s.cell c k + s.demand j o c k ≤ (s.channel c).effective) →
    let fails (c : Chan) : Prop :=
      j.uses c = true ∧ (s.channel c).state = .off ∧ (s.channel c).govl = true ∧ 2 ≤ (s.channel c).derate
    let l := s.line j.line
    ∃ t,
      exec (.signalAtStart order) s = .next t ∧ exec (.stepBoundary order) s = .next t ∧
      (∀ c, j.uses c = true → (s.channel c).state = .off →
        t.channel c =
          (if (s.channel c).govl = true ∧ 2 ≤ (s.channel c).derate then
            { s.channel c with state := .failed, startTimer := none, idleCount := 0 }
          else
            { s.channel c with
              state := if (s.channel c).grdy then .running else .starting
              startTimer := if (s.channel c).grdy then none else some 8
              idleCount := 0
              derate := if (s.channel c).govl then (s.channel c).derate + 1 else (s.channel c).derate
              recovery := if (s.channel c).govl then 0 else (s.channel c).recovery
              overloadMark := (s.channel c).govl || (s.channel c).overloadMark }) ∧
        t.port.partFlags.getLsbD 0 = true ∧
        (s.port.masks.getLsbD 3 = false → t.port.indications.length < 32 →
          let event (state : ChannelState) (derate : Nat) (cause : GeneratorCause) : Indication :=
            .generatorEvent c state derate cause
          let d := (s.channel c).derate
          let readyFirst : List Indication :=
            (if (s.channel c).grdy then [event .running d .ready] else []) ++
            (if (s.channel c).govl then
              if d < 2 then [event (if (s.channel c).grdy then .running else .starting) (d + 1) .overload]
              else [event .failed d .overload]
             else [])
          let overloadFirst : List Indication :=
            if d < 2 then [event .starting (d + 1) .overload, event .running (d + 1) .ready]
            else [event .failed d .overload]
          ∃ posted, t.port.indications = s.port.indications ++ posted ∧
            ((event .starting d .start :: readyFirst).Sublist posted ∨
              (s.channel c).grdy = true ∧ (s.channel c).govl = true ∧
                (event .starting d .start :: overloadFirst).Sublist posted))) ∧
      ((∃ c, fails c) →
        (∀ other, t.job other = none) ∧ t.sched.queue = [] ∧ t.sched.placements = [] ∧ t.sched.cells = s.sched.cells ∧
        t.hold = s.hold ∧ s.SameOutside j.line t ∧
        (l.state = .ringing → t.line j.line = (s.enterIdle j.line).line j.line) ∧
        (j.kind ≠ .revert →
          (t.port.lineFlags.get j.line).getLsbD 1 = true ∧
          (s.port.masks.getLsbD 1 = false → t.port.indications.length < 32 →
            ∃ posted, t.port.indications = s.port.indications ++ posted ∧
              .jobEnd id j.line j.kind .genFailed j.rung j.remaining ∈ posted)) ∧
        (j.kind = .revert → ∀ v, l.revert = some v →
          (t.port.lineFlags.get j.line).getLsbD 2 = true ∧
          (s.port.masks.getLsbD 2 = false → t.port.indications.length < 32 →
            ∃ posted, t.port.indications = s.port.indications ++ posted ∧
              .revertEvent
                { line := j.line, event := .ended, caller := v.caller, called := v.called, ringBack := v.ringBack,
                  retries := v.retries, cause := some .genFailed, job := some id, rung := some j.rung,
                  remaining := some j.remaining } ∈ posted)))

/-- The cycles and bursts of the PLACED jobs (R93, R102 to R107). Stage 2 takes one job after another: at the boundary into
its offset its first cycle begins, or a cycle ends and the next begins, and the last one ends the job NO_ANSWER. Stage 3
takes one entry of the placement list after another: its job's code is applied where it is wanted ON on a RUNNING channel,
and removed elsewhere; no new burst begins in HOLD_PENDING, none stands in HELD, and where the last one is removed in
HOLD_PENDING the hold becomes HELD, with HOLD_EVENT; each change blanks the line for two arrivals, and a line outside RINGING
refuses an apply. Every other entry, job and line stands. A boundary takes every job in stage 2 and every entry in stage 3,
each on the state the earlier ones left, then stages 4 and 5; one that finds RESUMING makes the hold RUNNING first (R162). In
which order stage 2 takes the jobs is the command's operand (log 7). The last part says the bursts of the only PLACED job
whole. -/
def Obligations.BurstsFollowThePattern : Prop :=
  (∀ (s : State) (id : JobId), s.PlacementsInv →
    let t := s.cycleWork id
    (s.job id = none → t = s) ∧
    ∀ j, s.job id = some j →
      (j.offset ≠ some s.sched.position → t = s) ∧
      ∀ e ∈ s.sched.placements, e.job = id → e.offset = s.sched.position →
        let next : Job :=
          { j with
            rung := if j.rang then j.rung + 1 else j.rung
            remaining := if j.rang then j.remaining - 1 else j.remaining
            rang := false
            codeIndex := if j.codeIndex + 1 < j.codes.length then j.codeIndex + 1 else 0 }
        (e.begun = false →
          t = s.setPlacements (s.sched.placements.map fun f => if f.job = id then { f with begun := true } else f)) ∧
        (e.begun = true → next.remaining ≠ 0 → t = s.setJob id (some next)) ∧
        (e.begun = true → next.remaining = 0 → t = (s.setJob id (some next)).endJob id .noAnswer)) ∧
  (∀ (s : State) (hold : HoldState) (e : Placement) (j : Job), s.PlacementsInv → e ∈ s.sched.placements →
    s.job e.job = some j → (s.line j.line).applied = e.applied →
    let l := s.line j.line
    let wanted : Option RingCode :=
      match j.codes[j.codeIndex]? with
      | some q =>
        if onStep (s.cadence.get q.pattern) (s.sched.position - e.offset) = true ∧ (s.channel q.chan).state = .running then
          some q
        else none
      | none => none
    let applied : Option RingCode :=
      match hold with
      | .running => if e.begun = false ∨ wanted.isSome = true ∧ l.state ≠ .ringing then e.applied else wanted
      | .holdPending => if wanted = e.applied then e.applied else none
      | .held | .resuming => none
    let changed : State :=
      (s.setLine j.line { l with applied := applied, blanking := 2 }).setPlacements
        (s.sched.placements.map fun f => if f.job = e.job then { f with applied := applied } else f)
    let held : Hold := { s.hold with state := .held }
    let lastBurst : Prop :=
      s.hold.state = .holdPending ∧ ∀ f ∈ s.sched.placements, f.applied.isSome = true → f.job = e.job
    State.burstWork hold s e =
      if applied = e.applied then s
      else if applied.isSome = true then changed.setJob e.job (some { j with rang := true })
      else if lastBurst then State.post { changed with hold := held } (.holdEvent held)
      else changed) ∧
  (∀ (s : State) (order : BoundaryOrder), s.Quiet →
    (∀ c, (s.channel c).state = .off → (s.channel c).grdy = false ∧ (s.channel c).govl = false) →
    let running : Hold := { s.hold with state := .running, mode := none, cause := some .request }
    let resumed : State :=
      if s.hold.state = .resuming then State.post { s with hold := running } (.holdEvent running) else s
    let advanced : State := { resumed with sched := { s.sched with position := s.sched.position + 1 } }
    ∃ jobs : List JobId, jobs.Perm (List.finRange 32) ∧ (order.jobs.Nodup → order.jobs <+: jobs) ∧
      let cycled := jobs.foldl (fun m id => m.cycleWork id) advanced
      let rung := cycled.sched.placements.foldl (fun m e => State.burstWork cycled.hold.state m e) cycled
      let waited := rung.waitingWork order
      let walked := waited.sched.queue.foldl (fun m id => m.tryPlace order.starts id) waited
      exec (.stepBoundary order) s = .next
        (State.arbitrate
          { walked with channels := tabulate fun c => { walked.channel c with entryMark := false } })) ∧
  (∀ (s : State) (order : BoundaryOrder) (id : JobId) (j : Job) (e : Placement), s.Quiet → s.OnePlaced id j e →
    j.codeIndex < j.codes.length → 1 ≤ j.remaining → (s.line j.line).state = .ringing →
    (s.line j.line).applied = e.applied → (e.applied.isSome → e.begun = true) →
    (s.hold.state = .holdPending → e.applied.isSome) →
    let l := s.line j.line
    let position := s.sched.position + 1
    let begun := e.begun || decide (e.offset = position)
    let next : Job :=
      if e.begun = true ∧ e.offset = position then
        { j with
          rung := if j.rang then j.rung + 1 else j.rung
          remaining := if j.rang then j.remaining - 1 else j.remaining
          rang := false
          codeIndex := if j.codeIndex + 1 < j.codes.length then j.codeIndex + 1 else 0 }
      else j
    1 ≤ next.remaining → ∀ q, next.codes[next.codeIndex]? = some q →
    let wanted : Option RingCode :=
      if onStep (s.cadence.get q.pattern) (position - e.offset) = true ∧ (s.channel q.chan).state = .running then some q
      else none
    let applied : Option RingCode :=
      match s.hold.state with
      | .running | .resuming => if begun then wanted else none
      | .holdPending => if wanted = e.applied then e.applied else none
      | .held => none
    ∃ t,
      exec (.stepBoundary order) s = .next t ∧
      t.sched.placements = [{ e with begun := begun, applied := applied }] ∧
      t.line j.line = (if applied = l.applied then l else { l with applied := applied, blanking := 2 }) ∧
      t.job id = some { next with rang := next.rang || (applied.isSome && decide (applied ≠ e.applied)) } ∧
      (∀ other, other ≠ id → t.job other = none) ∧ t.sched.queue = [] ∧ t.sched.cells = s.sched.cells ∧
      t.channels = s.channels ∧ s.SameOutside j.line t ∧
      t.hold =
        (if s.hold.state = .holdPending ∧ applied = none then { s.hold with state := .held }
         else if s.hold.state = .resuming then
           { s.hold with state := .running, mode := none, cause := some .request }
         else s.hold))

/-- The last cycle of a PLACED job ends it NO_ANSWER (R85, R103), and a job that has waited 480 steps ends NO_CAPACITY
(R88), in the boundary's work (R86), among any number of jobs: its record, queue place, entry and demand are gone, its line
is in IDLE, and its end is reported, by JOB_END or, for a REVERT job, by the end of its call (R139). A HELD job beneath it
returns to WAITING, and its line stays in RINGING; with a channel of its list out of service it ends GEN_FAILED (R82). Every
other job keeps its record and entry, and every other line stands. The first part says it of each job at stage 2, the second
of all jobs at stage 4, with all that is posted, the third of every quiet boundary, the last of the part's only job. The
order of the jobs is the command's operand, and stage 4 counts every WAITING job before it ends one (log 7); a HOLD_EVENT of
the last removal stands before the end (log 24). -/
def Obligations.JobTimersRunOut : Prop :=
  (∀ (base : State) (channels : Vector Channel 4), base.JobsInv → base.QueueInv →
    let s : State := { base with channels := channels }
    let idle (n : LineNo) : Line := (s.enterIdle n).line n
    let entersIdle (n : LineNo) : Prop :=
      ∀ held h, s.job held = some h → h.line = n → h.isHeld = true → s.channelOut h.codes = true
    let report (id : JobId) (j : Job) (cause : EndCause) : List Indication :=
      if j.kind = .revert then
        match (s.line j.line).revert with
        | none => []
        | some c =>
          [.revertEvent
            { line := j.line, event := .ended, caller := c.caller, called := c.called, ringBack := c.ringBack,
              retries := c.retries, cause := some cause, job := some id, rung := some j.rung,
              remaining := some j.remaining }]
      else [.jobEnd id j.line j.kind cause j.rung j.remaining]
    let follows (n : LineNo) : List Indication :=
      let leak : List Indication :=
        if (idle n).leaky = (s.line n).leaky then []
        else [.leakChange n (idle n).leaky (((s.line n).baseline + 8) / 16)]
      match s.heldJob n with
      | none => leak
      | some held =>
        match s.job held with
        | none => leak
        | some h => if s.channelOut h.codes then report held h .genFailed ++ leak else []
    (∀ (id : JobId) (j : Job) (e : Placement), s.PlacementsInv → s.job id = some j → e ∈ s.sched.placements →
      e.job = id → (s.line j.line).applied = e.applied → e.begun = true → e.offset = s.sched.position →
      j.rang = true → j.remaining = 1 →
      let n := j.line
      let t := s.cycleWork id
      let lastBurst : Prop :=
        s.hold.state = .holdPending ∧ e.applied.isSome = true ∧
          ∀ f ∈ s.sched.placements, f.applied.isSome = true → f.job = id
      t.job id = none ∧ t.QueueInv ∧ t.sched.placements = s.sched.placements.filter (fun f => f.job != id) ∧
      (∀ c k, t.cell c k = s.cell c k - s.demand j e.offset c k) ∧ t.channels = s.channels ∧ s.SameOutside n t ∧
      t.sched.position = s.sched.position ∧ t.hold = (if lastBurst then { s.hold with state := .held } else s.hold) ∧
      (∀ other x, other ≠ id → s.job other = some x →
        t.job other =
          if x.line ≠ n then some x else if s.channelOut x.codes then none else some { x with phase := .waiting }) ∧
      (∀ other, s.job other = none → t.job other = none) ∧ s.sched.queue.Sublist t.sched.queue ∧
      (entersIdle n → t.line n = idle n) ∧
      (¬ entersIdle n →
        t.line n =
          if e.applied.isSome then { s.line n with applied := none, blanking := 2 } else s.line n) ∧
      t.port =
        (((if lastBurst then [Indication.holdEvent { s.hold with state := .held }] else []) ++
          report id { j with rung := j.rung + 1, remaining := 0 } .noAnswer ++ follows n).foldl State.post s).port) ∧
    ∀ order : BoundaryOrder,
      let t := s.waitingWork order
      let expires (j : Job) : Bool := j.isWaiting && decide (479 ≤ j.waitingSteps)
      let bereft (n : LineNo) : Prop := ∃ id, ∃ j ∈ s.job id, j.line = n ∧ expires j = true
      (s.hold.state ≠ .running → t = s) ∧
      (s.hold.state = .running →
        (∀ id, s.job id = none → t.job id = none) ∧
        (∀ id j, s.job id = some j →
          t.job id =
            if expires j = true then none
            else if j.isWaiting = true then some { j with waitingSteps := j.waitingSteps + 1 }
            else if j.isHeld = true ∧ bereft j.line then
              if s.channelOut j.codes then none else some { j with phase := .waiting }
            else some j) ∧
        t.QueueInv ∧ (s.sched.queue.filter fun id => !(s.job id).any expires).Sublist t.sched.queue ∧
        t.sched.placements = s.sched.placements ∧ t.sched.cells = s.sched.cells ∧ t.channels = s.channels ∧
        t.sched.position = s.sched.position ∧ t.hold = s.hold ∧ t.cadence = s.cadence ∧ t.scan = s.scan ∧
        t.pending = s.pending ∧
        (∀ n, t.line n = if bereft n ∧ entersIdle n then idle n else s.line n) ∧
        ∃ jobs : List JobId, jobs.Perm (List.finRange 32) ∧ (order.jobs.Nodup → order.jobs <+: jobs) ∧
          t.port =
            ((jobs.flatMap fun id =>
                match s.job id with
                | none => []
                | some j => if expires j then report id j .noCapacity ++ follows j.line else []).foldl
              State.post s).port)) ∧
  (∀ (s : State) (order : BoundaryOrder), s.Quiet → s.RingPlanInv →
    ∃ t,
      exec (.noAnswer order) s = .next t ∧ exec (.noCapacity order) s = .next t ∧
      exec (.stepBoundary order) s = .next t ∧
      ∀ id j, s.job id = some j →
        let ended (cause : EndCause) (rung remaining : Nat) : Prop :=
          t.job id = none ∧ id ∉ t.sched.queue ∧ (∀ e ∈ t.sched.placements, e.job ≠ id) ∧
          (s.heldJob j.line = none → t.line j.line = (s.enterIdle j.line).line j.line) ∧
          (j.kind ≠ .revert →
            (t.port.lineFlags.get j.line).getLsbD 1 = true ∧
            (s.port.masks.getLsbD 1 = false → t.port.indications.length < 32 →
              ∃ posted, t.port.indications = s.port.indications ++ posted ∧
                .jobEnd id j.line j.kind cause rung remaining ∈ posted)) ∧
          (j.kind = .revert → ∀ c, (s.line j.line).revert = some c →
            (t.port.lineFlags.get j.line).getLsbD 2 = true ∧
            (s.port.masks.getLsbD 2 = false → t.port.indications.length < 32 →
              ∃ posted, t.port.indications = s.port.indications ++ posted ∧
                .revertEvent
                  { line := j.line, event := .ended, caller := c.caller, called := c.called, ringBack := c.ringBack,
                    retries := c.retries, cause := some cause, job := some id, rung := some rung,
                    remaining := some remaining } ∈ posted))
        (∀ e ∈ s.sched.placements, e.job = id → e.begun = true → e.offset = s.sched.position + 1 → j.rang = true →
          j.remaining = 1 → ended .noAnswer (j.rung + 1) 0) ∧
        (j.isWaiting = true → 479 ≤ j.waitingSteps → (s.hold.state = .running ∨ s.hold.state = .resuming) →
          ended .noCapacity j.rung j.remaining)) ∧
  (∀ (s : State) (order : BoundaryOrder) (id : JobId) (j : Job), s.Calm → (s.line j.line).state = .ringing →
    let gone (t : State) : Prop :=
      (∀ other, t.job other = none) ∧ t.sched.queue = [] ∧ t.sched.placements = [] ∧
      (t.line j.line).state = .idle ∧ (t.line j.line).applied = none ∧ (t.line j.line).revert = none ∧
      (t.line j.line).hook =
        { offHook := false, disagreement := 0, breakCount := 0, makeCount := 0, pulseCount := 0 } ∧
      t.channels = s.channels ∧ s.SameOutside j.line t
    let reported (t : State) (cause : EndCause) (rung remaining : Nat) : Prop :=
      (j.kind ≠ .revert →
        (t.port.lineFlags.get j.line).getLsbD 1 = true ∧
        (s.port.masks.getLsbD 1 = false → s.port.indications.length < 31 →
          .jobEnd id j.line j.kind cause rung remaining ∈ t.port.indications)) ∧
      (j.kind = .revert → ∀ c, (s.line j.line).revert = some c →
        (t.port.lineFlags.get j.line).getLsbD 2 = true ∧
        (s.port.masks.getLsbD 2 = false → s.port.indications.length < 31 →
          .revertEvent
            { line := j.line, event := .ended, caller := c.caller, called := c.called, ringBack := c.ringBack,
              retries := c.retries, cause := some cause, job := some id, rung := some rung,
              remaining := some remaining } ∈ t.port.indications))
    (∀ e, s.OnePlaced id j e → e.begun = true → e.offset = s.sched.position + 1 → j.rang = true → j.remaining = 1 →
      ∃ t, exec (.noAnswer order) s = .next t ∧ gone t ∧ reported t .noAnswer (j.rung + 1) 0 ∧
        ∀ c k, t.cell c k = s.cell c k - s.demand j e.offset c k) ∧
    (s.OneWaiting id j → s.hold.state = .running → 479 ≤ j.waitingSteps →
      ∃ t, exec (.noCapacity order) s = .next t ∧ gone t ∧ reported t .noCapacity j.rung j.remaining ∧
        t.sched.cells = s.sched.cells))

/-- The timers of a line without a job, at every boundary and in every order (R62, R130, R138): the park timer of LINGER,
into LOCKOUT at its end, with LINE_FAULT PERMANENT_LOOP; the wait steps of a reverting call, into SEIZED at their end, with
REVERT_EVENT ABANDONED CALLER_STAYED; the talk steps. Each report joins the queue where its class is not masked and the
boundary leaves room in the queue, and its summary flag is set in any case (R171). -/
def Obligations.LineTimersRunOut : Prop :=
  ∀ (s : State) (order : BoundaryOrder) (n : LineNo), (∀ id j, s.job id = some j → j.line ≠ n) →
    let l := s.line n
    let reported (t : State) (bit : Nat) (i : Indication) : Prop :=
      (t.port.lineFlags.get n).getLsbD bit = true ∧
      (s.port.masks.getLsbD bit = false → t.port.indications.length < 32 →
        ∃ posted, t.port.indications = s.port.indications ++ posted ∧ i ∈ posted)
    (∀ timer, l.park = some timer → l.state = .linger →
      ∃ t,
        exec (.permanentLoop order) s = .next t ∧ exec (.stepBoundary order) s = .next t ∧
        t.line n = (if timer ≤ 1 then { l with state := .lockout, park := none } else { l with park := some (timer - 1) }) ∧
        (timer ≤ 1 → reported t 3 (.lineFault n .permanentLoop .linger))) ∧
    (∀ c, l.revert = some c → l.state = .revertWait →
      ∃ t,
        exec (.callerStayed order) s = .next t ∧ exec (.stepBoundary order) s = .next t ∧
        t.line n =
          (if c.waitSteps ≤ 1 then { l with state := .seized, revert := none }
           else { l with revert := some { c with waitSteps := c.waitSteps - 1 } }) ∧
        (c.waitSteps ≤ 1 →
          reported t 2
            (.revertEvent
              { line := n, event := .abandoned, caller := c.caller, called := c.called, ringBack := c.ringBack,
                retries := c.retries, cause := some .callerStayed }))) ∧
    (∀ c, l.revert = some c → l.state = .revertTalk →
      ∃ t,
        exec (.stepBoundary order) s = .next t ∧
        t.line n = { l with revert := some { c with talkSteps := min 65535 (c.talkSteps + 1) } })

/-- The timers of a channel, in every order of a boundary's work (R148, R151, R153, R154): a start timer that runs out
fails the channel and ends the jobs on it; ten clean cycles give a derate level back, in OFF, STARTING and RUNNING, whatever
the level of GOVL; four idle cycles stop it. Each is reported by its GENERATOR_EVENT (R155), START_TIMEOUT, RECOVERY or
IDLE_STOP, where the class is not masked and the boundary leaves room in the queue, with the state and the level after the
change: a recovery may come before or after a start timeout, a placement that starts the channel or an idle stop of the same
cycle boundary, and an idle stop before or after a recovery or a start timeout. A channel that a placement of the same
boundary starts with GOVL asserted takes its overload after the recovery (R144, R149). That the idle count is 0 in FAILED is
read from R154 (log 17). -/
def Obligations.ChannelTimersRunOut : Prop :=
  ∀ (s : State) (order : BoundaryOrder) (c : Chan), (s.channel c).entryMark = false →
    let ch := s.channel c
    let reported (t : State) (reports : Indication → Prop) : Prop :=
      t.port.partFlags.getLsbD 0 = true ∧
      (s.port.masks.getLsbD 3 = false → t.port.indications.length < 32 →
        ∃ posted, t.port.indications = s.port.indications ++ posted ∧ ∃ i ∈ posted, reports i)
    let unused : Prop := ∀ id j, s.job id = some j → j.uses c = false
    let recovers : Prop := 0 < ch.derate ∧ ch.overloadMark = false ∧ 9 ≤ ch.recovery
    let cycle : Prop := s.sched.position = 23
    let cleared : Channel := { ch with overloadMark := if cycle then false else ch.overloadMark }
    let recovered : Channel :=
      if 0 < ch.derate ∧ ch.overloadMark = false then
        if 9 ≤ ch.recovery then { cleared with derate := ch.derate - 1, recovery := 0 }
        else { cleared with recovery := ch.recovery + 1 }
      else cleared
    (∀ timer, ch.startTimer = some timer → ch.state = .starting →
      ∃ t,
        exec (.startTimeout order) s = .next t ∧ exec (.stepBoundary order) s = .next t ∧
        (¬ cycle ∨ ch.idleCount < 3 →
          (timer ≤ 1 →
            (t.channel c).grun = false ∧ (∀ id j, t.job id = some j → j.uses c = false) ∧
            ∃ left ∈ [cleared, recovered], (cycle ∨ left = cleared) ∧
              t.channel c = { left with state := .failed, startTimer := none, idleCount := 0 } ∧
              reported t (fun i => i = .generatorEvent c .failed left.derate .startTimeout)) ∧
          (1 < timer → (t.channel c).state = .starting ∧ (t.channel c).startTimer = some (timer - 1))) ∧
        (cycle → 3 ≤ ch.idleCount → unused → timer ≤ 1 →
          (t.channel c).grun = false ∧ (t.channel c).startTimer = none ∧ (t.channel c).idleCount = 0 ∧
          reported t (fun i => ∃ derate ∈ [ch.derate, recovered.derate],
            i = .generatorEvent c .failed derate .startTimeout ∧ (t.channel c).state = .failed ∨
            i = .generatorEvent c .off derate .idleStop ∧ (t.channel c).state = .off))) ∧
    (cycle → (ch.state = .off ∨ ch.state = .running ∨ ch.state = .starting ∧ ∀ timer ∈ ch.startTimer, 2 ≤ timer) →
      let overloaded : Channel :=
        if recovered.derate < 2 then
          { recovered with derate := recovered.derate + 1, recovery := 0, overloadMark := true }
        else recovered
      ∃ t,
        exec (.recovery order) s = .next t ∧ exec (.stepBoundary order) s = .next t ∧
        (∃ left ∈ [recovered, overloaded],
          (left = recovered ∨ ch.govl = true ∧ ¬ unused ∧ (ch.state = .off ∨ 3 ≤ ch.idleCount)) ∧
          (t.channel c).derate = left.derate ∧ (t.channel c).recovery = left.recovery ∧
          (t.channel c).overloadMark = left.overloadMark) ∧
        (recovers →
          reported t (fun i =>
            ∃ state ∈ [ChannelState.off, .starting, .running],
              i = .generatorEvent c state (ch.derate - 1) .recovery ∧
              ((if ch.state = .off then unused else ch.idleCount < 3) → state = ch.state)))) ∧
    (s.sched.position = 23 → unused →
      (ch.state = .running ∨ ch.state = .starting ∧ ∃ timer, ch.startTimer = some timer ∧ 2 ≤ timer) →
      ∃ t,
        exec (.idleStop order) s = .next t ∧ exec (.stepBoundary order) s = .next t ∧
        (3 ≤ ch.idleCount →
          (t.channel c).state = .off ∧ (t.channel c).grun = false ∧ (t.channel c).idleCount = 0 ∧
          (t.channel c).startTimer = none ∧
          reported t (fun i =>
            ∃ derate, i = .generatorEvent c .off derate .idleStop ∧
              (derate = ch.derate ∨ recovers ∧ derate = ch.derate - 1))) ∧
        (ch.idleCount < 3 → (t.channel c).state = ch.state ∧ (t.channel c).idleCount = ch.idleCount + 1))
end

