-- ==== Sys2Proof/Laws/State.lean ====
section
/-! SUPPORT. What each update of the state does to each part of it: one lemma per part, by definition, so that no later
proof unfolds a record update. -/

namespace Sys2Proof.Machine

/-! ## One entry of a table -/

@[simp] theorem State.line_setLine_self (s : State) (n : LineNo) (l : Line) : (s.setLine n l).line n = l := by
  simp [State.line, State.setLine]

theorem State.line_setLine (s : State) (n m : LineNo) (l : Line) :
    (s.setLine n l).line m = if n = m then l else s.line m := by
  simp [State.line, State.setLine, get_replaceAt]

theorem State.line_setLine_ne (s : State) {n m : LineNo} (h : m ≠ n) (l : Line) :
    (s.setLine n l).line m = s.line m := by
  simp [State.line_setLine, Ne.symm h]

@[simp] theorem State.channel_setChannel_self (s : State) (c : Chan) (ch : Channel) :
    (s.setChannel c ch).channel c = ch := by
  simp [State.channel, State.setChannel]

theorem State.channel_setChannel (s : State) (c d : Chan) (ch : Channel) :
    (s.setChannel c ch).channel d = if c = d then ch else s.channel d := by
  simp [State.channel, State.setChannel, get_replaceAt]

@[simp] theorem State.job_setJob_self (s : State) (id : JobId) (j : Option Job) : (s.setJob id j).job id = j := by
  simp [State.job, State.setJob]

theorem State.job_setJob (s : State) (id other : JobId) (j : Option Job) :
    (s.setJob id j).job other = if id = other then j else s.job other := by
  simp [State.job, State.setJob, get_replaceAt]

/-! ## setLine -/

@[simp] theorem State.cadence_setLine (s : State) (n : LineNo) (l : Line) : (s.setLine n l).cadence = s.cadence := rfl
@[simp] theorem State.hold_setLine (s : State) (n : LineNo) (l : Line) : (s.setLine n l).hold = s.hold := rfl
@[simp] theorem State.scan_setLine (s : State) (n : LineNo) (l : Line) : (s.setLine n l).scan = s.scan := rfl
@[simp] theorem State.port_setLine (s : State) (n : LineNo) (l : Line) : (s.setLine n l).port = s.port := rfl
@[simp] theorem State.freeCount_setLine (s : State) (n : LineNo) (l : Line) :
    (s.setLine n l).freeCount = s.freeCount := rfl
@[simp] theorem State.pending_setLine (s : State) (n : LineNo) (l : Line) : (s.setLine n l).pending = s.pending := rfl
@[simp] theorem State.channels_setLine (s : State) (n : LineNo) (l : Line) :
    (s.setLine n l).channels = s.channels := rfl
@[simp] theorem State.sched_setLine (s : State) (n : LineNo) (l : Line) : (s.setLine n l).sched = s.sched := rfl
@[simp] theorem State.channel_setLine (s : State) (n : LineNo) (l : Line) (d : Chan) :
    (s.setLine n l).channel d = s.channel d := rfl
@[simp] theorem State.job_setLine (s : State) (n : LineNo) (l : Line) (other : JobId) :
    (s.setLine n l).job other = s.job other := rfl
@[simp] theorem State.cell_setLine (s : State) (n : LineNo) (l : Line) (d : Chan) (k : Pos) :
    (s.setLine n l).cell d k = s.cell d k := rfl

/-! ## setChannel -/

@[simp] theorem State.cadence_setChannel (s : State) (c : Chan) (ch : Channel) :
    (s.setChannel c ch).cadence = s.cadence := rfl
@[simp] theorem State.hold_setChannel (s : State) (c : Chan) (ch : Channel) : (s.setChannel c ch).hold = s.hold := rfl
@[simp] theorem State.scan_setChannel (s : State) (c : Chan) (ch : Channel) : (s.setChannel c ch).scan = s.scan := rfl
@[simp] theorem State.port_setChannel (s : State) (c : Chan) (ch : Channel) : (s.setChannel c ch).port = s.port := rfl
@[simp] theorem State.freeCount_setChannel (s : State) (c : Chan) (ch : Channel) :
    (s.setChannel c ch).freeCount = s.freeCount := rfl
@[simp] theorem State.pending_setChannel (s : State) (c : Chan) (ch : Channel) :
    (s.setChannel c ch).pending = s.pending := rfl
@[simp] theorem State.lines_setChannel (s : State) (c : Chan) (ch : Channel) :
    (s.setChannel c ch).lines = s.lines := rfl
@[simp] theorem State.sched_setChannel (s : State) (c : Chan) (ch : Channel) :
    (s.setChannel c ch).sched = s.sched := rfl
@[simp] theorem State.line_setChannel (s : State) (c : Chan) (ch : Channel) (m : LineNo) :
    (s.setChannel c ch).line m = s.line m := rfl
@[simp] theorem State.job_setChannel (s : State) (c : Chan) (ch : Channel) (other : JobId) :
    (s.setChannel c ch).job other = s.job other := rfl
@[simp] theorem State.cell_setChannel (s : State) (c : Chan) (ch : Channel) (d : Chan) (k : Pos) :
    (s.setChannel c ch).cell d k = s.cell d k := rfl

/-! ## setJob -/

@[simp] theorem State.cadence_setJob (s : State) (id : JobId) (j : Option Job) :
    (s.setJob id j).cadence = s.cadence := rfl
@[simp] theorem State.hold_setJob (s : State) (id : JobId) (j : Option Job) : (s.setJob id j).hold = s.hold := rfl
@[simp] theorem State.scan_setJob (s : State) (id : JobId) (j : Option Job) : (s.setJob id j).scan = s.scan := rfl
@[simp] theorem State.port_setJob (s : State) (id : JobId) (j : Option Job) : (s.setJob id j).port = s.port := rfl
@[simp] theorem State.freeCount_setJob (s : State) (id : JobId) (j : Option Job) :
    (s.setJob id j).freeCount = s.freeCount := rfl
@[simp] theorem State.pending_setJob (s : State) (id : JobId) (j : Option Job) :
    (s.setJob id j).pending = s.pending := rfl
@[simp] theorem State.lines_setJob (s : State) (id : JobId) (j : Option Job) : (s.setJob id j).lines = s.lines := rfl
@[simp] theorem State.channels_setJob (s : State) (id : JobId) (j : Option Job) :
    (s.setJob id j).channels = s.channels := rfl
@[simp] theorem State.line_setJob (s : State) (id : JobId) (j : Option Job) (m : LineNo) :
    (s.setJob id j).line m = s.line m := rfl
@[simp] theorem State.channel_setJob (s : State) (id : JobId) (j : Option Job) (d : Chan) :
    (s.setJob id j).channel d = s.channel d := rfl
@[simp] theorem State.cell_setJob (s : State) (id : JobId) (j : Option Job) (d : Chan) (k : Pos) :
    (s.setJob id j).cell d k = s.cell d k := rfl

/-! ## setQueue -/

@[simp] theorem State.cadence_setQueue (s : State) (q : List JobId) : (s.setQueue q).cadence = s.cadence := rfl
@[simp] theorem State.hold_setQueue (s : State) (q : List JobId) : (s.setQueue q).hold = s.hold := rfl
@[simp] theorem State.scan_setQueue (s : State) (q : List JobId) : (s.setQueue q).scan = s.scan := rfl
@[simp] theorem State.port_setQueue (s : State) (q : List JobId) : (s.setQueue q).port = s.port := rfl
@[simp] theorem State.freeCount_setQueue (s : State) (q : List JobId) : (s.setQueue q).freeCount = s.freeCount := rfl
@[simp] theorem State.pending_setQueue (s : State) (q : List JobId) : (s.setQueue q).pending = s.pending := rfl
@[simp] theorem State.lines_setQueue (s : State) (q : List JobId) : (s.setQueue q).lines = s.lines := rfl
@[simp] theorem State.channels_setQueue (s : State) (q : List JobId) : (s.setQueue q).channels = s.channels := rfl
@[simp] theorem State.line_setQueue (s : State) (q : List JobId) (m : LineNo) :
    (s.setQueue q).line m = s.line m := rfl
@[simp] theorem State.channel_setQueue (s : State) (q : List JobId) (d : Chan) :
    (s.setQueue q).channel d = s.channel d := rfl
@[simp] theorem State.job_setQueue (s : State) (q : List JobId) (other : JobId) :
    (s.setQueue q).job other = s.job other := rfl
@[simp] theorem State.cell_setQueue (s : State) (q : List JobId) (d : Chan) (k : Pos) :
    (s.setQueue q).cell d k = s.cell d k := rfl

/-! ## setPlacements -/

@[simp] theorem State.cadence_setPlacements (s : State) (ps : List Placement) :
    (s.setPlacements ps).cadence = s.cadence := rfl
@[simp] theorem State.hold_setPlacements (s : State) (ps : List Placement) : (s.setPlacements ps).hold = s.hold := rfl
@[simp] theorem State.scan_setPlacements (s : State) (ps : List Placement) : (s.setPlacements ps).scan = s.scan := rfl
@[simp] theorem State.port_setPlacements (s : State) (ps : List Placement) : (s.setPlacements ps).port = s.port := rfl
@[simp] theorem State.freeCount_setPlacements (s : State) (ps : List Placement) :
    (s.setPlacements ps).freeCount = s.freeCount := rfl
@[simp] theorem State.pending_setPlacements (s : State) (ps : List Placement) :
    (s.setPlacements ps).pending = s.pending := rfl
@[simp] theorem State.lines_setPlacements (s : State) (ps : List Placement) :
    (s.setPlacements ps).lines = s.lines := rfl
@[simp] theorem State.channels_setPlacements (s : State) (ps : List Placement) :
    (s.setPlacements ps).channels = s.channels := rfl
@[simp] theorem State.line_setPlacements (s : State) (ps : List Placement) (m : LineNo) :
    (s.setPlacements ps).line m = s.line m := rfl
@[simp] theorem State.channel_setPlacements (s : State) (ps : List Placement) (d : Chan) :
    (s.setPlacements ps).channel d = s.channel d := rfl
@[simp] theorem State.job_setPlacements (s : State) (ps : List Placement) (other : JobId) :
    (s.setPlacements ps).job other = s.job other := rfl
@[simp] theorem State.cell_setPlacements (s : State) (ps : List Placement) (d : Chan) (k : Pos) :
    (s.setPlacements ps).cell d k = s.cell d k := rfl

/-! ## setCells -/

@[simp] theorem State.cadence_setCells (s : State) (cells : Vector (Vector Nat 24) 4) :
    (s.setCells cells).cadence = s.cadence := rfl
@[simp] theorem State.hold_setCells (s : State) (cells : Vector (Vector Nat 24) 4) :
    (s.setCells cells).hold = s.hold := rfl
@[simp] theorem State.scan_setCells (s : State) (cells : Vector (Vector Nat 24) 4) :
    (s.setCells cells).scan = s.scan := rfl
@[simp] theorem State.port_setCells (s : State) (cells : Vector (Vector Nat 24) 4) :
    (s.setCells cells).port = s.port := rfl
@[simp] theorem State.freeCount_setCells (s : State) (cells : Vector (Vector Nat 24) 4) :
    (s.setCells cells).freeCount = s.freeCount := rfl
@[simp] theorem State.pending_setCells (s : State) (cells : Vector (Vector Nat 24) 4) :
    (s.setCells cells).pending = s.pending := rfl
@[simp] theorem State.lines_setCells (s : State) (cells : Vector (Vector Nat 24) 4) :
    (s.setCells cells).lines = s.lines := rfl
@[simp] theorem State.channels_setCells (s : State) (cells : Vector (Vector Nat 24) 4) :
    (s.setCells cells).channels = s.channels := rfl
@[simp] theorem State.line_setCells (s : State) (cells : Vector (Vector Nat 24) 4) (m : LineNo) :
    (s.setCells cells).line m = s.line m := rfl
@[simp] theorem State.channel_setCells (s : State) (cells : Vector (Vector Nat 24) 4) (d : Chan) :
    (s.setCells cells).channel d = s.channel d := rfl
@[simp] theorem State.job_setCells (s : State) (cells : Vector (Vector Nat 24) 4) (other : JobId) :
    (s.setCells cells).job other = s.job other := rfl

/-! ## post -/

@[simp] theorem State.cadence_post (s : State) (i : Indication) : (s.post i).cadence = s.cadence := rfl
@[simp] theorem State.hold_post (s : State) (i : Indication) : (s.post i).hold = s.hold := rfl
@[simp] theorem State.scan_post (s : State) (i : Indication) : (s.post i).scan = s.scan := rfl
@[simp] theorem State.freeCount_post (s : State) (i : Indication) : (s.post i).freeCount = s.freeCount := rfl
@[simp] theorem State.pending_post (s : State) (i : Indication) : (s.post i).pending = s.pending := rfl
@[simp] theorem State.lines_post (s : State) (i : Indication) : (s.post i).lines = s.lines := rfl
@[simp] theorem State.channels_post (s : State) (i : Indication) : (s.post i).channels = s.channels := rfl
@[simp] theorem State.sched_post (s : State) (i : Indication) : (s.post i).sched = s.sched := rfl
@[simp] theorem State.line_post (s : State) (i : Indication) (m : LineNo) : (s.post i).line m = s.line m := rfl
@[simp] theorem State.channel_post (s : State) (i : Indication) (d : Chan) : (s.post i).channel d = s.channel d := rfl
@[simp] theorem State.job_post (s : State) (i : Indication) (other : JobId) :
    (s.post i).job other = s.job other := rfl
@[simp] theorem State.cell_post (s : State) (i : Indication) (d : Chan) (k : Pos) :
    (s.post i).cell d k = s.cell d k := rfl

/-! ## send -/

@[simp] theorem State.cadence_send (s : State) (source : Source) (frame : List Byte) :
    (s.send source frame).cadence = s.cadence := rfl
@[simp] theorem State.hold_send (s : State) (source : Source) (frame : List Byte) :
    (s.send source frame).hold = s.hold := rfl
@[simp] theorem State.scan_send (s : State) (source : Source) (frame : List Byte) :
    (s.send source frame).scan = s.scan := rfl
@[simp] theorem State.freeCount_send (s : State) (source : Source) (frame : List Byte) :
    (s.send source frame).freeCount = s.freeCount := rfl
@[simp] theorem State.pending_send (s : State) (source : Source) (frame : List Byte) :
    (s.send source frame).pending = s.pending := rfl
@[simp] theorem State.lines_send (s : State) (source : Source) (frame : List Byte) :
    (s.send source frame).lines = s.lines := rfl
@[simp] theorem State.channels_send (s : State) (source : Source) (frame : List Byte) :
    (s.send source frame).channels = s.channels := rfl
@[simp] theorem State.sched_send (s : State) (source : Source) (frame : List Byte) :
    (s.send source frame).sched = s.sched := rfl
@[simp] theorem State.line_send (s : State) (source : Source) (frame : List Byte) (m : LineNo) :
    (s.send source frame).line m = s.line m := rfl
@[simp] theorem State.channel_send (s : State) (source : Source) (frame : List Byte) (d : Chan) :
    (s.send source frame).channel d = s.channel d := rfl
@[simp] theorem State.job_send (s : State) (source : Source) (frame : List Byte) (other : JobId) :
    (s.send source frame).job other = s.job other := rfl
@[simp] theorem State.cell_send (s : State) (source : Source) (frame : List Byte) (d : Chan) (k : Pos) :
    (s.send source frame).cell d k = s.cell d k := rfl

/-! ## setReceiver -/

@[simp] theorem State.cadence_setReceiver (s : State) (r : Receiver) : (s.setReceiver r).cadence = s.cadence := rfl
@[simp] theorem State.hold_setReceiver (s : State) (r : Receiver) : (s.setReceiver r).hold = s.hold := rfl
@[simp] theorem State.scan_setReceiver (s : State) (r : Receiver) : (s.setReceiver r).scan = s.scan := rfl
@[simp] theorem State.freeCount_setReceiver (s : State) (r : Receiver) :
    (s.setReceiver r).freeCount = s.freeCount := rfl
@[simp] theorem State.pending_setReceiver (s : State) (r : Receiver) : (s.setReceiver r).pending = s.pending := rfl
@[simp] theorem State.lines_setReceiver (s : State) (r : Receiver) : (s.setReceiver r).lines = s.lines := rfl
@[simp] theorem State.channels_setReceiver (s : State) (r : Receiver) : (s.setReceiver r).channels = s.channels := rfl
@[simp] theorem State.sched_setReceiver (s : State) (r : Receiver) : (s.setReceiver r).sched = s.sched := rfl
@[simp] theorem State.line_setReceiver (s : State) (r : Receiver) (m : LineNo) :
    (s.setReceiver r).line m = s.line m := rfl
@[simp] theorem State.channel_setReceiver (s : State) (r : Receiver) (d : Chan) :
    (s.setReceiver r).channel d = s.channel d := rfl
@[simp] theorem State.job_setReceiver (s : State) (r : Receiver) (other : JobId) :
    (s.setReceiver r).job other = s.job other := rfl
@[simp] theorem State.cell_setReceiver (s : State) (r : Receiver) (d : Chan) (k : Pos) :
    (s.setReceiver r).cell d k = s.cell d k := rfl

/-! ## fillReply -/

@[simp] theorem State.cadence_fillReply (s : State) (r : Request) (a : Answer) :
    (s.fillReply r a).cadence = s.cadence := rfl
@[simp] theorem State.hold_fillReply (s : State) (r : Request) (a : Answer) : (s.fillReply r a).hold = s.hold := rfl
@[simp] theorem State.scan_fillReply (s : State) (r : Request) (a : Answer) : (s.fillReply r a).scan = s.scan := rfl
@[simp] theorem State.freeCount_fillReply (s : State) (r : Request) (a : Answer) :
    (s.fillReply r a).freeCount = s.freeCount := rfl
@[simp] theorem State.pending_fillReply (s : State) (r : Request) (a : Answer) :
    (s.fillReply r a).pending = s.pending := rfl
@[simp] theorem State.lines_fillReply (s : State) (r : Request) (a : Answer) :
    (s.fillReply r a).lines = s.lines := rfl
@[simp] theorem State.channels_fillReply (s : State) (r : Request) (a : Answer) :
    (s.fillReply r a).channels = s.channels := rfl
@[simp] theorem State.sched_fillReply (s : State) (r : Request) (a : Answer) :
    (s.fillReply r a).sched = s.sched := rfl
@[simp] theorem State.line_fillReply (s : State) (r : Request) (a : Answer) (m : LineNo) :
    (s.fillReply r a).line m = s.line m := rfl
@[simp] theorem State.channel_fillReply (s : State) (r : Request) (a : Answer) (d : Chan) :
    (s.fillReply r a).channel d = s.channel d := rfl
@[simp] theorem State.job_fillReply (s : State) (r : Request) (a : Answer) (other : JobId) :
    (s.fillReply r a).job other = s.job other := rfl
@[simp] theorem State.cell_fillReply (s : State) (r : Request) (a : Answer) (d : Chan) (k : Pos) :
    (s.fillReply r a).cell d k = s.cell d k := rfl
@[simp] theorem State.queue_setJob (s : State) (id : JobId) (j : Option Job) :
    (s.setJob id j).sched.queue = s.sched.queue := rfl
@[simp] theorem State.arrivalCounter_setJob (s : State) (id : JobId) (j : Option Job) :
    (s.setJob id j).sched.arrivalCounter = s.sched.arrivalCounter := rfl
@[simp] theorem State.placementCounter_setJob (s : State) (id : JobId) (j : Option Job) :
    (s.setJob id j).sched.placementCounter = s.sched.placementCounter := rfl
@[simp] theorem State.position_setJob (s : State) (id : JobId) (j : Option Job) :
    (s.setJob id j).sched.position = s.sched.position := rfl
@[simp] theorem State.cells_setJob (s : State) (id : JobId) (j : Option Job) :
    (s.setJob id j).sched.cells = s.sched.cells := rfl
@[simp] theorem State.placements_setJob (s : State) (id : JobId) (j : Option Job) :
    (s.setJob id j).sched.placements = s.sched.placements := rfl
@[simp] theorem State.jobs_setQueue (s : State) (q : List JobId) :
    (s.setQueue q).sched.jobs = s.sched.jobs := rfl
@[simp] theorem State.queue_setQueue (s : State) (q : List JobId) :
    (s.setQueue q).sched.queue = q := rfl
@[simp] theorem State.arrivalCounter_setQueue (s : State) (q : List JobId) :
    (s.setQueue q).sched.arrivalCounter = s.sched.arrivalCounter := rfl
@[simp] theorem State.placementCounter_setQueue (s : State) (q : List JobId) :
    (s.setQueue q).sched.placementCounter = s.sched.placementCounter := rfl
@[simp] theorem State.position_setQueue (s : State) (q : List JobId) :
    (s.setQueue q).sched.position = s.sched.position := rfl
@[simp] theorem State.cells_setQueue (s : State) (q : List JobId) :
    (s.setQueue q).sched.cells = s.sched.cells := rfl
@[simp] theorem State.placements_setQueue (s : State) (q : List JobId) :
    (s.setQueue q).sched.placements = s.sched.placements := rfl
@[simp] theorem State.jobs_setPlacements (s : State) (ps : List Placement) :
    (s.setPlacements ps).sched.jobs = s.sched.jobs := rfl
@[simp] theorem State.queue_setPlacements (s : State) (ps : List Placement) :
    (s.setPlacements ps).sched.queue = s.sched.queue := rfl
@[simp] theorem State.arrivalCounter_setPlacements (s : State) (ps : List Placement) :
    (s.setPlacements ps).sched.arrivalCounter = s.sched.arrivalCounter := rfl
@[simp] theorem State.placementCounter_setPlacements (s : State) (ps : List Placement) :
    (s.setPlacements ps).sched.placementCounter = s.sched.placementCounter := rfl
@[simp] theorem State.position_setPlacements (s : State) (ps : List Placement) :
    (s.setPlacements ps).sched.position = s.sched.position := rfl
@[simp] theorem State.cells_setPlacements (s : State) (ps : List Placement) :
    (s.setPlacements ps).sched.cells = s.sched.cells := rfl
@[simp] theorem State.placements_setPlacements (s : State) (ps : List Placement) :
    (s.setPlacements ps).sched.placements = ps := rfl
@[simp] theorem State.jobs_setCells (s : State) (cells : Vector (Vector Nat 24) 4) :
    (s.setCells cells).sched.jobs = s.sched.jobs := rfl
@[simp] theorem State.queue_setCells (s : State) (cells : Vector (Vector Nat 24) 4) :
    (s.setCells cells).sched.queue = s.sched.queue := rfl
@[simp] theorem State.arrivalCounter_setCells (s : State) (cells : Vector (Vector Nat 24) 4) :
    (s.setCells cells).sched.arrivalCounter = s.sched.arrivalCounter := rfl
@[simp] theorem State.placementCounter_setCells (s : State) (cells : Vector (Vector Nat 24) 4) :
    (s.setCells cells).sched.placementCounter = s.sched.placementCounter := rfl
@[simp] theorem State.position_setCells (s : State) (cells : Vector (Vector Nat 24) 4) :
    (s.setCells cells).sched.position = s.sched.position := rfl
@[simp] theorem State.cells_setCells (s : State) (cells : Vector (Vector Nat 24) 4) :
    (s.setCells cells).sched.cells = cells := rfl
@[simp] theorem State.placements_setCells (s : State) (cells : Vector (Vector Nat 24) 4) :
    (s.setCells cells).sched.placements = s.sched.placements := rfl


end Sys2Proof.Machine
end

