-- ==== Sys2Proof/Laws/Link.lean ====
section
/-! SUPPORT. What the Message Port makes of a frame of the host (R166 to R170): the characters of a frame, the frame of a
request, and the reply to a request sent over a link at rest. -/

namespace Sys2Proof.Machine

/-! ## Sums -/

theorem byteSum_cons (b : Byte) (bytes : List Byte) : byteSum (b :: bytes) = b + byteSum bytes := by
  have shift : ∀ (xs : List Byte) (z : Byte), xs.foldl (· + ·) z = z + xs.foldl (· + ·) 0 := by
    intro xs
    induction xs with
    | nil => intro z; simp
    | cons x xs ih =>
      intro z
      simp only [List.foldl_cons]
      rw [ih (z + x), ih (0 + x), zero_add, BitVec.add_assoc]
  simp only [byteSum, List.foldl_cons, zero_add]
  exact shift bytes b

theorem byteSum_append (xs ys : List Byte) : byteSum (xs ++ ys) = byteSum xs + byteSum ys := by
  induction xs with
  | nil => simp [byteSum]
  | cons x xs ih => simp [byteSum_cons, ih, BitVec.add_assoc]

/-- The check byte brings the sum of a frame to 0 (R166). -/
theorem byteSum_checked (body : List Byte) : byteSum (body ++ [-byteSum body]) = 0#8 := by
  rw [byteSum_append, byteSum_cons]
  simp [byteSum]

/-! ## Reception -/

/-- The characters that complete a frame in BODY (R167). -/
theorem State.characters_body (count : Byte) :
    ∀ (rest collected : List Byte) (s : State), s.port.receiver = .body count collected → rest ≠ [] →
      collected.length + rest.length = count.toNat + 1 →
      s.characters rest = (s.setReceiver .hunt).completeFrame count (collected ++ rest) := by
  intro rest
  induction rest with
  | nil => intro _ _ _ h; exact absurd rfl h
  | cons b rest ih =>
    intro collected s hr _ hlen
    simp only [List.length_cons] at hlen
    have first : s.characters (b :: rest) = (s.receive b true).characters rest := rfl
    have step : s.receive b true = s.collect count collected b := by
      simp [State.receive, hr]
    rw [first, step]
    by_cases hend : rest = []
    · subst hend
      simp only [List.length_nil] at hlen
      have : ¬ (collected ++ [b]).length < count.toNat + 1 := by simp; omega
      simp only [State.collect, this, if_false]
      rfl
    · have hpos : 0 < rest.length := List.length_pos_iff.mpr hend
      have : (collected ++ [b]).length < count.toNat + 1 := by simp; omega
      simp only [State.collect, this, if_true]
      rw [ih (collected ++ [b]) (s.setReceiver (.body count (collected ++ [b]))) rfl hend (by simp; omega)]
      simp [State.setReceiver]

/-- A whole frame at a receiver in HUNT that may start one (R167, R168). -/
theorem State.characters_frame (s : State) (count : Byte) (rest : List Byte) (hr : s.port.receiver = .hunt)
    (hb : s.port.busy.length < 4) (low : 2 ≤ count.toNat) (high : count.toNat ≤ 250)
    (hlen : rest.length = count.toNat + 1) :
    s.characters (marker :: count :: rest) = s.completeFrame count rest := by
  have one : s.receive marker true = s.setReceiver .count := by
    simp [State.receive, hr, bufferLimit, hb]
  have two : (s.setReceiver .count).receive count true = s.setReceiver (.body count []) := by
    simp [State.receive, State.setReceiver, low, high]
  have split : s.characters (marker :: count :: rest) =
      ((s.receive marker true).receive count true).characters rest := rfl
  rw [split, one, two, State.characters_body count rest [] _ rfl (by intro h; simp [h] at hlen)
    (by simpa using hlen)]
  have same : (s.setReceiver (.body count [])).setReceiver .hunt = s := by
    simp only [State.setReceiver, ← hr]
  rw [same, List.nil_append]

/-- A request of the host reaches the request buffer or the BUSY list, and what follows from it (R168 to R170). -/
theorem State.hostSends_eq (s : State) (type tag : Byte) (payload : List Byte) (hr : s.port.receiver = .hunt)
    (hb : s.port.busy.length < 4) (hlen : payload.length ≤ 248) :
    s.hostSends type tag payload = ((s.takeFrame type tag payload).dispatch).arbitrate := by
  have hc : (toByte (payload.length + 2)).toNat = payload.length + 2 := by
    simp [BitVec.toNat_ofNat]; omega
  have hframe : frameOf type tag payload =
      marker :: toByte (payload.length + 2) :: (type :: tag :: (payload ++
        [-byteSum (toByte (payload.length + 2) :: type :: tag :: payload)])) := by
    simp [frameOf]
  rw [State.hostSends, hframe, State.characters_frame s _ _ hr hb (by omega) (by omega) (by simp [hc])]
  have hsum := byteSum_checked (toByte (payload.length + 2) :: type :: tag :: payload)
  simp only [List.cons_append] at hsum
  simp [State.completeFrame, hsum]

/-! ## Requests over a link at rest -/

/-- The reply of a request whose owner leaves the BUSY list empty (R169, R170). -/
theorem State.fillReply_arbitrate (s : State) (r : Request) (a : Answer) (hb : s.port.busy = []) :
    (s.fillReply r a).arbitrate = s.replied r.type r.tag a.status a.body := by
  unfold State.arbitrate State.replied
  cases ht : s.port.transmitter <;>
    simp [State.fillReply, State.send, ht, hb, Reply.frame, replyType]

/-- The request at the head of the buffer is taken when the reply slot is empty (R169). -/
theorem State.dispatch_first (s : State) (r : Request) (rest : List Request) (hreply : s.port.reply = none)
    (hreq : s.port.requests = r :: rest) :
    s.dispatch =
      (answerRequest { s with port := { s.port with requests := rest } } r).1.fillReply r
        (answerRequest { s with port := { s.port with requests := rest } } r).2 := by
  simp only [State.dispatch, hreply, hreq]

/-- A request sent over a link at rest is dispatched at once (R169). -/
theorem State.hostSends_ready (s : State) (h : s.LinkReady) (type tag : Byte) (payload : List Byte)
    (hlen : payload.length ≤ 248)
    (hb : (answerRequest s { type := type, tag := tag, payload := payload, marked := false }).1.port.busy = []) :
    s.hostSends type tag payload =
      (answerRequest s { type := type, tag := tag, payload := payload, marked := false }).1.replied type tag
        (answerRequest s { type := type, tag := tag, payload := payload, marked := false }).2.status
        (answerRequest s { type := type, tag := tag, payload := payload, marked := false }).2.body := by
  rw [State.hostSends_eq s type tag payload h.receiver (by simp [h.busy]) hlen]
  have htaken : s.takeFrame type tag payload =
      { s with port := { s.port with
          requests := [{ type := type, tag := tag, payload := payload, marked := false }] } } := by
    simp [State.takeFrame, h.requests, bufferLimit]
  have hempty : ({ s.takeFrame type tag payload with
      port := { (s.takeFrame type tag payload).port with requests := [] } } : State) = s := by
    rw [htaken]
    have := h.requests
    cases s with
    | mk _ _ _ _ _ _ port _ _ => cases port; simp_all
  have hdispatch := State.dispatch_first (s.takeFrame type tag payload)
    { type := type, tag := tag, payload := payload, marked := false } [] (by rw [htaken]; exact h.reply)
    (by rw [htaken])
  rw [hempty] at hdispatch
  rw [hdispatch, State.fillReply_arbitrate _ _ _ hb]

/-- A request that passes the checks, sent over a link at rest, is taken by its owner (R169). -/
theorem State.hostSends_taken (s : State) (h : s.LinkReady) (type tag : Byte) (payload : List Byte)
    (hlen : payload.length ≤ 248) (request : HostRequest) (hread : readRequest type payload = .ok request)
    (hb : (takeRequest s request).1.port.busy = []) :
    s.hostSends type tag payload =
      (takeRequest s request).1.replied type tag (takeRequest s request).2.status (takeRequest s request).2.body := by
  have ha : answerRequest s { type := type, tag := tag, payload := payload, marked := false } =
      takeRequest s request := by
    simp [answerRequest, h.startUp, hread]
  rw [State.hostSends_ready s h type tag payload hlen (by rw [ha]; exact hb), ha]

/-- A request that fails a check of the Message Port, sent over a link at rest, changes nothing but the reply slot
(R169). -/
theorem State.hostSends_refused (s : State) (h : s.LinkReady) (type tag : Byte) (payload : List Byte)
    (hlen : payload.length ≤ 248) (status : Status) (hread : readRequest type payload = .error status) :
    s.hostSends type tag payload = s.replied type tag status := by
  have ha : answerRequest s { type := type, tag := tag, payload := payload, marked := false } =
      (s, { status := status }) := by
    simp [answerRequest, h.startUp, hread, refuse]
  rw [State.hostSends_ready s h type tag payload hlen (by rw [ha]; exact h.busy), ha]

end Sys2Proof.Machine
end

