-- ==== Sys2Proof/Laws/Dispatch.lean ====
section
/-! SUPPORT. No owner of a request reads or writes the receiver, the request buffer, the BUSY list or the transmitter
(R167 to R170): every operation that the owners are built from commutes with a change of these fields, so a buffered
request is answered as its frame alone would be. -/

namespace Sys2Proof.Machine

/-- What of the port no owner of a request touches. -/
structure LinkSide where
  receiver : Receiver
  requests : List Request
  busy : List BusyEntry
  transmitter : Option Transmission
  deriving DecidableEq, Repr

/-- The port with its link side replaced. -/
def Port.relink (k : LinkSide) (p : Port) : Port :=
  { p with receiver := k.receiver, requests := k.requests, busy := k.busy, transmitter := k.transmitter }

/-- The state with the port's link side replaced. -/
def State.relink (k : LinkSide) (s : State) : State := { s with port := s.port.relink k }

variable (k : LinkSide) (s : State)

/-! ## What a change of the link side leaves alone -/

@[simp] theorem State.relink_line (n : LineNo) : (s.relink k).line n = s.line n := rfl
@[simp] theorem State.relink_channel (c : Chan) : (s.relink k).channel c = s.channel c := rfl
@[simp] theorem State.relink_job (id : JobId) : (s.relink k).job id = s.job id := rfl
@[simp] theorem State.relink_cell (c : Chan) (p : Pos) : (s.relink k).cell c p = s.cell c p := rfl
@[simp] theorem State.relink_sched : (s.relink k).sched = s.sched := rfl
@[simp] theorem State.relink_hold : (s.relink k).hold = s.hold := rfl
@[simp] theorem State.relink_cadence : (s.relink k).cadence = s.cadence := rfl
@[simp] theorem State.relink_freeCount : (s.relink k).freeCount = s.freeCount := rfl
@[simp] theorem State.relink_indications : (s.relink k).port.indications = s.port.indications := rfl
@[simp] theorem State.relink_masks : (s.relink k).port.masks = s.port.masks := rfl
@[simp] theorem State.relink_partFlags : (s.relink k).port.partFlags = s.port.partFlags := rfl
@[simp] theorem State.relink_lineFlags : (s.relink k).port.lineFlags = s.port.lineFlags := rfl
@[simp] theorem State.relink_overrun : (s.relink k).port.overrun = s.port.overrun := rfl
@[simp] theorem State.relink_startUp : (s.relink k).port.startUp = s.port.startUp := rfl
@[simp] theorem State.relink_activeJob (n : LineNo) : (s.relink k).activeJob n = s.activeJob n := rfl
@[simp] theorem State.relink_heldJob (n : LineNo) : (s.relink k).heldJob n = s.heldJob n := rfl
@[simp] theorem State.relink_freeRecord : (s.relink k).freeRecord = s.freeRecord := rfl
@[simp] theorem State.relink_channelOut (codes : List RingCode) : (s.relink k).channelOut codes = s.channelOut codes := rfl
@[simp] theorem State.relink_overNominal (l : Line) (q : RingCode) :
    (s.relink k).overNominal l q = s.overNominal l q := rfl
@[simp] theorem State.relink_placement (id : JobId) : (s.relink k).placement id = s.placement id := rfl
@[simp] theorem State.relink_appliedCount : (s.relink k).appliedCount = s.appliedCount := rfl
@[simp] theorem State.relink_hasGeneral (n : LineNo) : (s.relink k).hasGeneral n = s.hasGeneral n := rfl
@[simp] theorem State.relink_patternInUse (p : PatternNo) : (s.relink k).patternInUse p = s.patternInUse p := rfl
@[simp] theorem State.relink_highestLoad (c : Chan) : (s.relink k).highestLoad c = s.highestLoad c := rfl

/-! ## Updates -/

@[simp] theorem State.relink_setLine (n : LineNo) (l : Line) : (s.relink k).setLine n l = (s.setLine n l).relink k := rfl
@[simp] theorem State.relink_setChannel (c : Chan) (ch : Channel) :
    (s.relink k).setChannel c ch = (s.setChannel c ch).relink k := rfl
@[simp] theorem State.relink_setJob (id : JobId) (j : Option Job) : (s.relink k).setJob id j = (s.setJob id j).relink k := rfl
@[simp] theorem State.relink_setPlacements (ps : List Placement) :
    (s.relink k).setPlacements ps = (s.setPlacements ps).relink k := rfl
@[simp] theorem State.relink_joinQueue (id : JobId) : (s.relink k).joinQueue id = (s.joinQueue id).relink k := rfl
@[simp] theorem State.relink_leaveQueue (id : JobId) : (s.relink k).leaveQueue id = (s.leaveQueue id).relink k := rfl
@[simp] theorem State.relink_renumberArrivals : (s.relink k).renumberArrivals = s.renumberArrivals.relink k := rfl
@[simp] theorem State.relink_subtractDemand (j : Job) (o : Pos) :
    (s.relink k).subtractDemand j o = (s.subtractDemand j o).relink k := rfl
@[simp] theorem State.relink_modifyPlacement (id : JobId) (f : Placement → Placement) :
    (s.relink k).modifyPlacement id f = (s.modifyPlacement id f).relink k := rfl

theorem Port.relink_enqueue (p : Port) (i : Indication) : (p.relink k).enqueue i = (p.enqueue i).relink k := by
  have same : (p.relink k).indications = p.indications := rfl
  unfold Port.enqueue
  rw [same]
  by_cases h : p.indications.length < queueLimit
  · rw [if_pos h, if_pos h]; rfl
  · rw [if_neg h, if_neg h]; rfl

theorem Port.relink_raise (p : Port) (target : FlagTarget) : (p.relink k).raise target = (p.raise target).relink k := by
  cases target <;> rfl

@[simp] theorem State.relink_post (i : Indication) : (s.relink k).post i = (s.post i).relink k := by
  have port : (s.port.relink k).post i = (s.port.post i).relink k := by
    unfold Port.post
    split
    · exact Port.relink_enqueue k _ _
    · rename_i c target _
      rw [Port.relink_raise, Port.relink_enqueue]
      by_cases h : s.port.masked c = true
      · exact (if_pos h).trans (congrArg (Port.relink k) (if_pos h)).symm
      · exact (if_neg h).trans (congrArg (Port.relink k) (if_neg h)).symm
  exact congrArg (fun p => { s with port := p }) port

@[simp] theorem State.relink_changeHold (h : Hold) : (s.relink k).changeHold h = (s.changeHold h).relink k :=
  State.relink_post k { s with hold := h } _
@[simp] theorem State.relink_changeChannel (c : Chan) (ch : Channel) (cause : GeneratorCause) :
    (s.relink k).changeChannel c ch cause = (s.changeChannel c ch cause).relink k := by
  simp [State.changeChannel]

/-- A walk whose every turn commutes with a change of the link side does so itself. -/
theorem State.relink_foldl {α : Type} (f : State → α → State)
    (turn : ∀ s a, f (s.relink k) a = (f s a).relink k) (xs : List α) :
    xs.foldl f (s.relink k) = (xs.foldl f s).relink k := by
  induction xs generalizing s with
  | nil => rfl
  | cons x xs ih => simp only [List.foldl_cons, turn, ih]

/-! ## The operations of the owners -/

@[simp] theorem State.relink_updateLeaky (n : LineNo) : (s.relink k).updateLeaky n = (s.updateLeaky n).relink k := by
  simp only [State.updateLeaky, State.relink_line, State.relink_setLine, State.relink_post]
  split <;> rfl

@[simp] theorem State.relink_enterIdle (n : LineNo) : (s.relink k).enterIdle n = (s.enterIdle n).relink k := by
  simp [State.enterIdle]

@[simp] theorem State.relink_reportNoBurst : (s.relink k).reportNoBurst = s.reportNoBurst.relink k := by
  simp only [State.reportNoBurst, State.relink_hold, State.relink_appliedCount, State.relink_changeHold]
  split <;> rfl

@[simp] theorem State.relink_removeCode (id : JobId) : (s.relink k).removeCode id = (s.removeCode id).relink k := by
  simp only [State.removeCode, State.relink_placement, State.relink_job]
  split
  · split
    · simp
    · rfl
  · rfl

@[simp] theorem State.relink_removeCodes (test : Placement → Bool) :
    (s.relink k).removeCodes test = (s.removeCodes test).relink k :=
  State.relink_foldl k s _ (fun s e => State.relink_removeCode k s e.job) _

@[simp] theorem State.relink_cutAll : (s.relink k).cutAll = s.cutAll.relink k := State.relink_removeCodes k s _

@[simp] theorem State.relink_unplace (id : JobId) (phase : JobPhase) :
    (s.relink k).unplace id phase = (s.unplace id phase).relink k := by
  simp only [State.unplace, State.relink_job]
  split
  · split <;> simp
  · rfl

@[simp] theorem State.relink_endRevert (n : LineNo) (event : RevertEventKind) (cause : EndCause)
    (fill : RevertReport → RevertReport) :
    (s.relink k).endRevert n event cause fill = (s.endRevert n event cause fill).relink k := by
  simp only [State.endRevert, State.relink_line]
  split <;> simp

@[simp] theorem State.relink_revertJobEnded (id : JobId) (j : Job) (cause : EndCause) :
    (s.relink k).revertJobEnded id j cause = (s.revertJobEnded id j cause).relink k := by
  simp only [State.revertJobEnded, State.relink_line, State.relink_endRevert, State.relink_setLine]
  split
  · split <;> rfl
  · rfl

@[simp] theorem State.relink_endRecord (id : JobId) (cause : EndCause) :
    (s.relink k).endRecord id cause = (s.endRecord id cause).relink k := by
  simp only [State.endRecord, State.relink_job]
  split
  · rfl
  · rename_i j _
    cases j.phase <;> cases j.kind <;> simp <;> split <;> rfl

@[simp] theorem State.relink_returnHeld (id : JobId) : (s.relink k).returnHeld id = (s.returnHeld id).relink k := by
  simp only [State.returnHeld, State.relink_job]
  split <;> simp

@[simp] theorem State.relink_heldAfter (n : LineNo) (cause : EndCause) :
    (s.relink k).heldAfter n cause = (s.heldAfter n cause).relink k := by
  simp only [State.heldAfter, State.relink_heldJob, State.relink_job, State.relink_channelOut, State.relink_endRecord,
    State.relink_returnHeld]
  split
  · rfl
  · split <;> try rfl
    all_goals (split <;> try rfl)
    all_goals (split <;> rfl)

@[simp] theorem State.relink_endJob (id : JobId) (cause : EndCause) :
    (s.relink k).endJob id cause = (s.endJob id cause).relink k := by
  simp only [State.endJob, State.relink_job]
  split
  · rfl
  · rename_i j _
    by_cases hk : j.kind = .general
    · simp only [hk, if_true, State.relink_endRecord, State.relink_heldAfter, State.relink_activeJob, State.relink_line,
        State.relink_enterIdle]
      split <;> rfl
    · simp only [hk, if_false, State.relink_endRecord, State.relink_activeJob, State.relink_line, State.relink_enterIdle]
      split <;> rfl

@[simp] theorem State.relink_endLineJobs (n : LineNo) (cause : EndCause) :
    (s.relink k).endLineJobs n cause = (s.endLineJobs n cause).relink k := by
  simp only [State.endLineJobs, State.relink_activeJob]
  cases s.activeJob n <;> simp only [State.relink_endJob, State.relink_heldJob] <;> split <;> rfl

@[simp] theorem State.relink_takeOut (n : LineNo) (state : LineState) (cause : EndCause) :
    (s.relink k).takeOut n state cause = (s.takeOut n state cause).relink k := by
  simp [State.takeOut]

@[simp] theorem State.relink_endOnChannel (c : Chan) (id : JobId) :
    (s.relink k).endOnChannel c id = (s.endOnChannel c id).relink k := by
  simp only [State.endOnChannel, State.relink_job, State.relink_endJob]
  split
  · split <;> rfl
  · rfl

@[simp] theorem State.relink_channelLost (c : Chan) : (s.relink k).channelLost c = (s.channelLost c).relink k := by
  simp only [State.channelLost, State.cutChannel, State.relink_removeCodes]
  exact State.relink_foldl k _ _ (fun s id => State.relink_endOnChannel k s c id) _

@[simp] theorem State.relink_createJob (n : LineNo) (kind : JobKind) (target : Option Digit) (codes : List RingCode)
    (cycles : Nat) :
    (s.relink k).createJob n kind target codes cycles =
      (s.createJob n kind target codes cycles).map fun x => (x.1, x.2.relink k) := by
  have same : (s.relink k).sched.arrivalCounter = s.sched.arrivalCounter := rfl
  unfold State.createJob
  rw [State.relink_freeRecord]
  cases s.freeRecord with
  | none => rfl
  | some id =>
    by_cases h : s.sched.arrivalCounter = stampLimit
    · simp only [same, h, if_true]; rfl
    · simp only [same, h, if_false]; rfl

@[simp] theorem State.relink_holdJob (id : JobId) : (s.relink k).holdJob id = (s.holdJob id).relink k := by
  simp only [State.holdJob, State.relink_job]
  split
  · split <;> simp
  · rfl

@[simp] theorem State.relink_setNominal (c : Chan) (nominal : Nat) :
    (s.relink k).setNominal c nominal = (s.setNominal c nominal).relink k := by
  simp only [State.setNominal, State.relink_channel, State.relink_changeChannel, State.relink_channelLost,
    State.relink_setChannel]
  split <;> split <;> rfl

@[simp] theorem State.relink_holdRinging (mode : HoldMode) :
    (s.relink k).holdRinging mode = (s.holdRinging mode).relink k := by
  simp only [State.holdRinging, State.relink_hold, State.relink_changeHold, State.relink_cutAll,
    State.relink_reportNoBurst]
  split <;> rfl

@[simp] theorem State.relink_release (n : LineNo) : (s.relink k).release n = (s.release n).relink k := by
  simp only [State.release, State.relink_line, State.relink_endRevert]
  split <;> split <;> simp

/-- An owner's answer with the link side of its state replaced. -/
def relinked (x : State × Answer) : State × Answer := (x.1.relink k, x.2)

@[simp] theorem relinked_accept (body : List Byte) : relinked k (accept s body) = accept (s.relink k) body := rfl
@[simp] theorem relinked_refuse (status : Status) : relinked k (refuse s status) = refuse (s.relink k) status := rfl

@[simp] theorem relinked_mk (answer : Answer) : relinked k (s, answer) = (s.relink k, answer) := rfl

theorem relinked_ite (c : Prop) [Decidable c] (x y : State × Answer) :
    relinked k (if c then x else y) = if c then relinked k x else relinked k y := apply_ite _ _ _ _

theorem takeProfileLoad_relink (n : LineNo) (p : RawProfile) :
    takeProfileLoad (s.relink k) n p = relinked k (takeProfileLoad s n p) := by
  simp only [takeProfileLoad, State.stage, State.relink_line]
  split
  · split <;> simp
  · rfl

theorem takeProfileClear_relink (n : LineNo) :
    takeProfileClear (s.relink k) n = relinked k (takeProfileClear s n) := by
  simp only [takeProfileClear, State.relink_line]
  split <;> simp [State.clearProfile]

theorem State.startRing_relink (n : LineNo) (d : Digit) (q : RingCode) (cycles : Nat) :
    (s.relink k).startRing n d q cycles = relinked k (s.startRing n d q cycles) := by
  simp only [State.startRing, State.relink_createJob]
  cases s.createJob n .call (some d) [q] cycles <;> rfl

theorem takeRing_relink (n : LineNo) (d : Digit) (cycles : Nat) :
    takeRing (s.relink k) n d cycles = relinked k (takeRing s n d cycles) := by
  simp only [takeRing, State.relink_line, State.relink_channelOut, State.relink_overNominal, State.startRing_relink]
  split <;> (try rfl)
  split <;> simp only [relinked_ite, relinked_refuse]

theorem State.startGeneral_relink (n : LineNo) (codes : List RingCode) (cycles : Nat) :
    (s.relink k).startGeneral n codes cycles = relinked k (s.startGeneral n codes cycles) := by
  cases ha : s.activeJob n with
  | none =>
    simp only [State.startGeneral, State.relink_activeJob, ha, State.relink_createJob]
    cases s.createJob n .general none codes cycles with
    | none => rfl
    | some x =>
      by_cases h : (x.2.line n).state = .ringing <;>
        simp only [Option.map_some, State.relink_line, State.relink_setLine, h, if_true, if_false] <;> rfl
  | some id =>
    simp only [State.startGeneral, State.relink_activeJob, ha, State.relink_holdJob, State.relink_createJob]
    cases (s.holdJob id).createJob n .general none codes cycles with
    | none => rfl
    | some x =>
      by_cases h : (x.2.line n).state = .ringing <;>
        simp only [Option.map_some, State.relink_line, State.relink_setLine, h, if_true, if_false] <;> rfl

theorem takeGeneralRing_relink (n : LineNo) (cycles : Nat) :
    takeGeneralRing (s.relink k) n cycles = relinked k (takeGeneralRing s n cycles) := by
  simp only [takeGeneralRing, State.relink_line, State.relink_hasGeneral, State.relink_channelOut,
    State.relink_overNominal, State.startGeneral_relink]
  split <;> (try rfl)
  simp only [relinked_ite, relinked_refuse]
  refine ite_congr rfl (fun _ => rfl) fun _ => ite_congr rfl (fun _ => rfl) fun _ => ?_
  split <;> rfl

theorem takeCancel_relink (n : LineNo) : takeCancel (s.relink k) n = relinked k (takeCancel s n) := by
  simp only [takeCancel, State.relink_line, State.relink_activeJob, State.relink_endJob, State.abandonRevert,
    State.relink_setLine, State.relink_endRevert]
  split <;> (try rfl)
  split <;> rfl

theorem takeRevert_relink (n : LineNo) (called : Digit) :
    takeRevert (s.relink k) n called = relinked k (takeRevert s n called) := by
  simp only [takeRevert, State.checkRevert, State.startRevert, State.relink_line, State.relink_channelOut,
    State.relink_setLine]
  split
  · rfl
  · rw [relinked_ite]
    refine ite_congr rfl (fun _ => rfl) fun _ => ?_
    split <;> (try rfl)
    split <;> (try rfl)
    rw [relinked_ite]
    refine ite_congr rfl (fun _ => rfl) fun _ => ?_
    split <;> (try rfl)
    simp only [relinked_ite, relinked_refuse]
    rfl

theorem takeGeneratorSet_relink (c : Chan) (nominal : Nat) :
    takeGeneratorSet (s.relink k) c nominal = relinked k (takeGeneratorSet s c nominal) := by
  simp only [takeGeneratorSet, State.relink_channel, State.relink_highestLoad, State.relink_setNominal]
  split <;> rfl

theorem takeResume_relink : takeResume (s.relink k) = relinked k (takeResume s) := by
  simp only [takeResume, State.relink_hold, State.relink_changeHold, State.relink_cutAll]
  split
  · rfl
  · split <;> rfl

/-- No owner of a request reads or writes the link side of the port (R169). -/
theorem takeRequest_relink (r : HostRequest) : takeRequest (s.relink k) r = relinked k (takeRequest s r) := by
  cases r <;> simp only [takeRequest, takeProfileLoad_relink, takeProfileClear_relink, takeRing_relink,
    takeGeneralRing_relink, takeCancel_relink, takeRevert_relink, takeGeneratorSet_relink, takeResume_relink]
  case profileRead n staged =>
    simp only [takeProfileRead, State.relink_line]
    split <;> rfl
  case cadenceLoad p bursts =>
    simp only [takeCadenceLoad, State.relink_patternInUse, relinked_ite]
    rfl
  case jobRead id =>
    simp only [takeJobRead, State.relink_job]
    split <;> rfl
  case release n =>
    simp only [takeRelease, State.relink_line, State.relink_release]
    split <;> rfl
  case block n =>
    simp only [takeBlock, State.relink_line, State.relink_takeOut]
    split <;> rfl
  case unblock n =>
    simp only [takeUnblock, State.relink_line, State.relink_enterIdle]
    split <;> rfl
  case generatorReset c =>
    simp only [takeGeneratorReset, State.relink_channel, State.relink_changeChannel]
    split <;> rfl
  case hold mode => simp [takeHold]
  all_goals rfl

/-- A request is answered alike, and with the same effects, whatever stands on the link side of the port (R169). -/
theorem answerRequest_relink (r : Request) : answerRequest (s.relink k) r = relinked k (answerRequest s r) := by
  simp only [answerRequest, State.relink_startUp, takeRequest_relink]
  split
  · rfl
  · split <;> rfl

end Sys2Proof.Machine
end

