-- ==== Sys2Proof/Laws/Ops.lean ====
section
/-! SUPPORT. What each shared operation can do, said once: the provers cite these in place of unfolding the operation. -/

namespace Sys2Proof.Machine

/-! ## Two updates of one entry -/

theorem replaceAt_replaceAt {n : Nat} {α : Type} (v : Vector α n) (i : Fin n) (x y : α) :
    replaceAt (replaceAt v i x) i y = replaceAt v i y := by
  simp [replaceAt]

theorem replaceAt_get {n : Nat} {α : Type} (v : Vector α n) (i : Fin n) : replaceAt v i (v.get i) = v := by
  ext k hk
  simp only [replaceAt, Vector.getElem_set]
  split
  · next h => subst h; rfl
  · rfl

theorem State.setLine_setLine (s : State) (n : LineNo) (l m : Line) :
    (s.setLine n l).setLine n m = s.setLine n m := by
  simp [State.setLine, replaceAt_replaceAt]

theorem State.setLine_line (s : State) (n : LineNo) : s.setLine n (s.line n) = s := by
  simp [State.setLine, State.line, replaceAt_get]

theorem State.setChannel_setChannel (s : State) (c : Chan) (x y : Channel) :
    (s.setChannel c x).setChannel c y = s.setChannel c y := by
  simp [State.setChannel, replaceAt_replaceAt]

theorem State.setChannel_channel (s : State) (c : Chan) : s.setChannel c (s.channel c) = s := by
  simp [State.setChannel, State.channel, replaceAt_get]

theorem State.setJob_setJob (s : State) (id : JobId) (x y : Option Job) :
    (s.setJob id x).setJob id y = s.setJob id y := by
  simp [State.setJob, replaceAt_replaceAt]

theorem State.post_setLine (s : State) (n : LineNo) (l : Line) (i : Indication) :
    (s.setLine n l).post i = (s.post i).setLine n l := rfl

/-! ## Posting (R171) -/

/-- What the queue's end leaves alone. -/
theorem Port.enqueue_keeps (p : Port) (i : Indication) :
    (p.enqueue i).rate = p.rate ∧ (p.enqueue i).receiver = p.receiver ∧ (p.enqueue i).requests = p.requests ∧
    (p.enqueue i).busy = p.busy ∧ (p.enqueue i).reply = p.reply ∧ (p.enqueue i).transmitter = p.transmitter ∧
    (p.enqueue i).masks = p.masks ∧ (p.enqueue i).startUp = p.startUp ∧
    (p.enqueue i).lineFlags = p.lineFlags ∧ (p.enqueue i).partFlags = p.partFlags := by
  unfold Port.enqueue
  by_cases h : p.indications.length < queueLimit <;> simp [h]

/-- A summary flag set leaves all else of the port alone. -/
theorem Port.raise_keeps (p : Port) (target : FlagTarget) :
    (p.raise target).rate = p.rate ∧ (p.raise target).receiver = p.receiver ∧
    (p.raise target).requests = p.requests ∧ (p.raise target).busy = p.busy ∧ (p.raise target).reply = p.reply ∧
    (p.raise target).transmitter = p.transmitter ∧ (p.raise target).masks = p.masks ∧
    (p.raise target).startUp = p.startUp ∧ (p.raise target).indications = p.indications ∧
    (p.raise target).overrun = p.overrun := by
  cases target <;> simp [Port.raise]

/-- A posting keeps everything of the port but the flags, the queue and the overrun flag. -/
theorem Port.post_keeps (p : Port) (i : Indication) :
    (p.post i).rate = p.rate ∧ (p.post i).receiver = p.receiver ∧ (p.post i).requests = p.requests ∧
    (p.post i).busy = p.busy ∧ (p.post i).reply = p.reply ∧ (p.post i).transmitter = p.transmitter ∧
    (p.post i).masks = p.masks ∧ (p.post i).startUp = p.startUp := by
  unfold Port.post
  split
  · have := p.enqueue_keeps i
    simp [this]
  · next c target _ =>
    have raised := p.raise_keeps target
    have queued := (p.raise target).enqueue_keeps i
    by_cases h : p.masked c <;> simp [h, raised, queued]

/-- A posting leaves the queue as it is or adds one indication at its end. -/
theorem Port.post_indications (p : Port) (i : Indication) :
    (p.post i).indications = p.indications ∨
      (p.post i).indications = p.indications ++ [i] ∧ p.indications.length < queueLimit := by
  have queued : ∀ q : Port, (q.enqueue i).indications = q.indications ∨
      (q.enqueue i).indications = q.indications ++ [i] ∧ q.indications.length < queueLimit := by
    intro q
    by_cases h : q.indications.length < queueLimit
    · exact .inr ⟨by simp [Port.enqueue, h], h⟩
    · exact .inl (by simp [Port.enqueue, h])
  unfold Port.post
  split
  · exact queued p
  · next c target _ =>
    have raised := (p.raise_keeps target).2.2.2.2.2.2.2.2.1
    have := queued (p.raise target)
    rw [raised] at this
    by_cases h : p.masked c
    · exact .inl (by simp [h, raised])
    · simpa [h] using this

/-- A queue that a posting found within its limit is within it after. -/
theorem Port.post_limit (p : Port) (i : Indication) (h : p.indications.length ≤ queueLimit) :
    (p.post i).indications.length ≤ queueLimit := by
  obtain e | ⟨e, l⟩ := Port.post_indications p i <;> rw [e]
  · exact h
  · simp only [List.length_append, List.length_singleton]; omega

/-! ## The LEAKY flag and the entry to IDLE (R33, R56) -/

/-- Only the LEAKY flag of the line, and the port by a LEAK_CHANGE, can change. -/
theorem State.updateLeaky_cases (s : State) (n : LineNo) :
    (s.line n).leakyNext = (s.line n).leaky ∧ s.updateLeaky n = s ∨
    (s.line n).leakyNext ≠ (s.line n).leaky ∧
      s.updateLeaky n =
        (s.setLine n { s.line n with leaky := (s.line n).leakyNext }).post
          (.leakChange n (s.line n).leakyNext (s.line n).leakage) := by
  by_cases h : (s.line n).leakyNext = (s.line n).leaky
  · exact .inl ⟨h, by simp [State.updateLeaky, h]⟩
  · exact .inr ⟨h, by simp [State.updateLeaky, h]⟩

theorem State.line_updateLeaky (s : State) (n m : LineNo) :
    (s.updateLeaky n).line m =
      if n = m then { s.line n with leaky := (s.line n).leakyNext } else s.line m := by
  obtain ⟨h, e⟩ | ⟨_, e⟩ := s.updateLeaky_cases n <;> rw [e]
  · split
    · next hm => subst hm; rw [h]
    · rfl
  · simp [State.line_setLine]

/-- What `updateLeaky` leaves alone. -/
theorem State.updateLeaky_keeps (s : State) (n : LineNo) :
    (s.updateLeaky n).sched = s.sched ∧ (s.updateLeaky n).channels = s.channels ∧
    (s.updateLeaky n).cadence = s.cadence ∧ (s.updateLeaky n).hold = s.hold ∧ (s.updateLeaky n).scan = s.scan ∧
    (s.updateLeaky n).freeCount = s.freeCount ∧ (s.updateLeaky n).pending = s.pending := by
  obtain ⟨_, e⟩ | ⟨_, e⟩ := s.updateLeaky_cases n <;> rw [e] <;> simp

theorem State.line_enterIdle (s : State) (n m : LineNo) :
    (s.enterIdle n).line m =
      if n = m then { (s.line n).toIdle with leaky := (s.line n).toIdle.leakyNext } else s.line m := by
  simp only [State.enterIdle, State.line_updateLeaky, State.line_setLine_self, State.line_setLine]
  split <;> rfl

/-- What an entry to IDLE leaves alone. -/
theorem State.enterIdle_keeps (s : State) (n : LineNo) :
    (s.enterIdle n).sched = s.sched ∧ (s.enterIdle n).channels = s.channels ∧
    (s.enterIdle n).cadence = s.cadence ∧ (s.enterIdle n).hold = s.hold ∧ (s.enterIdle n).scan = s.scan ∧
    (s.enterIdle n).freeCount = s.freeCount ∧ (s.enterIdle n).pending = s.pending := by
  simpa [State.enterIdle] using (s.setLine n (s.line n).toIdle).updateLeaky_keeps n

/-- The state left has no part in what an entry to IDLE makes of a line (R56). -/
theorem Line.toIdle_state (l : Line) : l.toIdle.state = .idle ∧ l.toIdle.hook = .onHook ∧ l.toIdle.park = none ∧
    l.toIdle.revert = none ∧ l.toIdle.staged = none ∧ l.toIdle.baseline = l.baseline ∧
    l.toIdle.seizeResult = l.seizeResult := by
  simp only [Line.toIdle, Line.commit, Line.enter, Line.leave]
  cases l.state <;> cases h : l.staged <;> simp

/-! ## The hold record (R106, R159, R163) -/

/-- What a change of the hold record leaves alone. -/
theorem State.changeHold_keeps (s : State) (h : Hold) :
    (s.changeHold h).hold = h ∧ (s.changeHold h).lines = s.lines ∧ (s.changeHold h).sched = s.sched ∧
    (s.changeHold h).channels = s.channels ∧ (s.changeHold h).cadence = s.cadence ∧
    (s.changeHold h).scan = s.scan ∧ (s.changeHold h).freeCount = s.freeCount ∧
    (s.changeHold h).pending = s.pending := by
  simp [State.changeHold, State.post]

/-- The report of R106 changes the hold record from HOLD_PENDING to HELD, or nothing. -/
theorem State.reportNoBurst_cases (s : State) :
    s.reportNoBurst = s ∨
    s.hold.state = .holdPending ∧ s.appliedCount = 0 ∧
      s.reportNoBurst = s.changeHold { s.hold with state := .held } := by
  unfold State.reportNoBurst
  split
  · next h => exact .inr ⟨h.1, h.2, rfl⟩
  · exact .inl rfl

theorem State.reportNoBurst_keeps (s : State) :
    s.reportNoBurst.lines = s.lines ∧ s.reportNoBurst.sched = s.sched ∧ s.reportNoBurst.channels = s.channels ∧
    s.reportNoBurst.cadence = s.cadence ∧ s.reportNoBurst.scan = s.scan ∧
    s.reportNoBurst.freeCount = s.freeCount ∧ s.reportNoBurst.pending = s.pending := by
  obtain e | ⟨_, _, e⟩ := s.reportNoBurst_cases <;> rw [e]
  · simp
  · exact (s.changeHold_keeps _).2

/-! ## Removal and unplacement (R101, R107, R108) -/

/-- A remove request changes the entry, the line's applied code and blanking count, and the hold record by R106. -/
theorem State.removeCode_keeps (s : State) (id : JobId) :
    (s.removeCode id).sched.jobs = s.sched.jobs ∧ (s.removeCode id).sched.queue = s.sched.queue ∧
    (s.removeCode id).sched.cells = s.sched.cells ∧ (s.removeCode id).sched.position = s.sched.position ∧
    (s.removeCode id).sched.arrivalCounter = s.sched.arrivalCounter ∧
    (s.removeCode id).sched.placementCounter = s.sched.placementCounter ∧
    (s.removeCode id).channels = s.channels ∧ (s.removeCode id).cadence = s.cadence ∧
    (s.removeCode id).scan = s.scan ∧ (s.removeCode id).freeCount = s.freeCount ∧
    (s.removeCode id).pending = s.pending := by
  unfold State.removeCode
  split
  · dsimp only
    split
    · simp only [(State.reportNoBurst_keeps _).2.1, (State.reportNoBurst_keeps _).2.2.1,
        (State.reportNoBurst_keeps _).2.2.2.1, (State.reportNoBurst_keeps _).2.2.2.2.1,
        (State.reportNoBurst_keeps _).2.2.2.2.2.1, (State.reportNoBurst_keeps _).2.2.2.2.2.2]
      simp [State.modifyPlacement]
    · simp
  · simp

/-- The lines after a remove request: only the job's line can have lost its code. -/
theorem State.line_removeCode (s : State) (id : JobId) (m : LineNo) :
    (s.removeCode id).line m = s.line m ∨
    (∃ j, s.job id = some j ∧ j.line = m) ∧ (s.removeCode id).line m = (s.line m).takeRemove := by
  unfold State.removeCode
  split
  · next e j he hj =>
    dsimp only
    split
    · have lines : ∀ t : State, t.reportNoBurst.line m = t.line m := fun t => by
        simp only [State.line, (State.reportNoBurst_keeps t).1]
      rw [lines, State.line_setLine]
      split
      · next h => subst h; exact .inr ⟨⟨j, hj, rfl⟩, rfl⟩
      · exact .inl rfl
    · exact .inl rfl
  · exact .inl rfl

/-! ## The end of a reverting call (R139 to R141) -/

/-- The end of a call deletes the context and posts its event, and does nothing where there is no call. -/
theorem State.endRevert_cases (s : State) (n : LineNo) (event : RevertEventKind) (cause : EndCause)
    (fill : RevertReport → RevertReport) :
    (s.line n).revert = none ∧ s.endRevert n event cause fill = s ∨
    ∃ c, (s.line n).revert = some c ∧
      s.endRevert n event cause fill =
        (s.setLine n { s.line n with revert := none }).post
          (c.report n event fun r => fill { r with cause := some cause }) := by
  unfold State.endRevert
  split
  · next c h => exact .inr ⟨c, h, rfl⟩
  · next h => exact .inl ⟨h, rfl⟩

/-! ## The transmitter and the link (R170) -/

/-- Arbitration moves the transmitter alone, and with it the count of free values. -/
theorem State.arbitrate_keeps (s : State) :
    s.arbitrate.lines = s.lines ∧ s.arbitrate.cadence = s.cadence ∧ s.arbitrate.sched = s.sched ∧
    s.arbitrate.channels = s.channels ∧ s.arbitrate.hold = s.hold ∧ s.arbitrate.scan = s.scan ∧
    s.arbitrate.pending = s.pending ∧
    s.arbitrate.port = { s.port with transmitter := s.arbitrate.port.transmitter } := by
  unfold State.arbitrate
  split
  · simp
  · split
    · simp [State.send]
    · simp [State.send]
    · simp [State.send]
    · simp

/-! ## The exchange (R21, R26) -/

/-- The end of an exchange moves the round, and the start-up state where the presence set is handed over. -/
theorem State.endExchange_keeps (s : State) (n : LineNo) :
    (s.endExchange n).lines = s.lines ∧ (s.endExchange n).cadence = s.cadence ∧
    (s.endExchange n).sched = s.sched ∧ (s.endExchange n).channels = s.channels ∧
    (s.endExchange n).hold = s.hold ∧ (s.endExchange n).freeCount = s.freeCount ∧
    (s.endExchange n).pending = s.pending ∧
    (s.endExchange n).scan =
      { position := n + 1, word := commandWord (n + 1) (s.line (n + 1)), stormDue := n == 15 } := by
  have handed : ∀ t : State, t.handOver.lines = t.lines ∧ t.handOver.cadence = t.cadence ∧
      t.handOver.sched = t.sched ∧ t.handOver.channels = t.channels ∧ t.handOver.hold = t.hold ∧
      t.handOver.freeCount = t.freeCount ∧ t.handOver.pending = t.pending := by
    intro t
    unfold State.handOver
    split <;> simp [State.post]
  by_cases h : n = 15
  · obtain ⟨a, b, c, d, e, f, g⟩ := handed s
    simp [State.endExchange, State.beginExchange, h, a, b, c, d, e, f, g, State.line]
  · simp [State.endExchange, State.beginExchange, h]

/-- The read of STORM is made where the round's read is due, and nothing is done elsewhere (R160). -/
theorem State.stormRead_cases (s : State) (found : State → State) :
    s.scan.position = 0 ∧ s.scan.stormDue = true ∧
      s.stormRead found = ((found s).beginExchange 0 false).arbitrate ∨
    (s.scan.position ≠ 0 ∨ s.scan.stormDue = false) ∧ s.stormRead found = s := by
  unfold State.stormRead
  split
  · next h => exact .inl ⟨h.1, h.2, rfl⟩
  · next h => exact .inr ⟨by simpa [or_iff_not_imp_left] using h, rfl⟩

/-! ## Placement (R97 to R100) -/

/-- What the walk does with one job of the queue: nothing behind a STARVED job, its placement at the first offset that
fits, or one skip more. -/
theorem State.tryPlace_cases (s : State) (starts : List Chan) (id : JobId) (j : Job) (h : s.job id = some j) :
    s.starvedOut id j = true ∧ s.tryPlace starts id = s ∨
    s.starvedOut id j = false ∧
      ((∃ o, s.offsets.find? (s.fits j) = some o ∧ s.tryPlace starts id = s.place starts id j o) ∨
        s.offsets.find? (s.fits j) = none ∧ s.tryPlace starts id = s.setJob id (some j.skip)) := by
  unfold State.tryPlace
  simp only [h]
  split
  · next blocked => exact .inl ⟨blocked, rfl⟩
  · next free =>
    refine .inr ⟨by simpa using free, ?_⟩
    split
    · next o found => exact .inl ⟨o, found, rfl⟩
    · next found => exact .inr ⟨found, rfl⟩

/-- The offsets tried are all 24. -/
theorem State.mem_offsets (s : State) (o : Pos) : o ∈ s.offsets := by
  refine List.mem_map.mpr ⟨o - (s.sched.position + 1), List.mem_finRange _, ?_⟩
  abel

/-! ## Sets of party positions (R11, R178) -/

theorem add_eq_or (a b : Nat) (h : a &&& b = 0) : a + b = a ||| b := by
  have small : a + b < 2 ^ (a + b) := Nat.lt_two_pow_self
  have ha : a < 2 ^ (a + b) := by omega
  have hb : b < 2 ^ (a + b) := by omega
  have apart : BitVec.ofNat (a + b) a &&& BitVec.ofNat (a + b) b = 0#(a + b) := by simp [← BitVec.ofNat_and, h]
  have joined := congrArg BitVec.toNat (BitVec.add_eq_or_of_and_eq_zero _ _ apart)
  simpa [Nat.mod_eq_of_lt, small, ha, hb] using joined

/-- A set of positions has the bit of each of its positions and no other. -/
theorem positionSet_testBit (positions : List Nat) (once : positions.Nodup) (i : Nat) :
    (positionSet positions).testBit i = true ↔ i ∈ positions := by
  induction positions generalizing i with
  | nil => simp [positionSet]
  | cons p rest ih =>
    obtain ⟨fresh, once⟩ := List.nodup_cons.mp once
    have apart : 2 ^ p &&& positionSet rest = 0 := by
      refine Nat.eq_of_testBit_eq fun k => ?_
      by_cases h : p = k
      · subst h
        simpa [Nat.testBit_and, Nat.testBit_two_pow] using (ih once p).not.mpr fresh
      · simp [Nat.testBit_and, h]
    have joined : positionSet (p :: rest) = 2 ^ p ||| positionSet rest := by
      simpa [positionSet] using add_eq_or _ _ apart
    rw [joined, Nat.testBit_or, Bool.or_eq_true, ih once, List.mem_cons]
    simp [Nat.testBit_two_pow, eq_comm]

/-! ## The Ring Request Queue and the Job Table (R73, R76) -/

theorem mem_insertBy {α : Type} (before : α → α → Bool) (x y : α) (xs : List α) :
    y ∈ insertBy before x xs ↔ y = x ∨ y ∈ xs := by
  induction xs with
  | nil => simp [insertBy]
  | cons z zs ih =>
    simp only [insertBy]
    split
    · simp
    · simp only [List.mem_cons, ih]
      tauto

/-- An item inserted stands somewhere in the list as it was. -/
theorem insertBy_split {α : Type} (before : α → α → Bool) (x : α) (xs : List α) :
    ∃ front behind, xs = front ++ behind ∧ insertBy before x xs = front ++ x :: behind := by
  induction xs with
  | nil => exact ⟨[], [], rfl, rfl⟩
  | cons z zs ih =>
    simp only [insertBy]
    split
    · exact ⟨[], z :: zs, rfl, rfl⟩
    · obtain ⟨front, behind, rfl, e⟩ := ih
      exact ⟨z :: front, behind, rfl, by rw [e]; rfl⟩

theorem mem_allJobs (id : JobId) : id ∈ allJobs := List.mem_finRange id

/-- The free record is free. -/
theorem State.freeRecord_free (s : State) (id : JobId) (h : s.freeRecord = some id) : s.job id = none := by
  have := List.find?_some h
  simpa using this

/-- The active job of a line is in use, on the line, and not HELD (R73). -/
theorem State.activeJob_spec (s : State) (n : LineNo) (id : JobId) (h : s.activeJob n = some id) :
    ∃ j, s.job id = some j ∧ j.line = n ∧ j.isHeld = false := by
  have found := List.find?_some h
  split at found
  · next j hj => exact ⟨j, hj, by simpa using found⟩
  · cases found

/-- A line without an active job has no WAITING or PLACED job (R73). -/
theorem State.activeJob_none (s : State) (n : LineNo) (h : s.activeJob n = none) (id : JobId) (j : Job)
    (hj : s.job id = some j) (hn : j.line = n) : j.isHeld = true := by
  have absent := List.find?_eq_none.mp h id (mem_allJobs id)
  simp only [hj] at absent
  simpa [hn] using absent

/-- The held job of a line is in use, on the line, and HELD (R73). -/
theorem State.heldJob_spec (s : State) (n : LineNo) (id : JobId) (h : s.heldJob n = some id) :
    ∃ j, s.job id = some j ∧ j.line = n ∧ j.isHeld = true := by
  have found := List.find?_some h
  split at found
  · next j hj => exact ⟨j, hj, by simpa using found⟩
  · cases found

/-- A line without a held job has none HELD. -/
theorem State.heldJob_none (s : State) (n : LineNo) (h : s.heldJob n = none) (id : JobId) (j : Job)
    (hj : s.job id = some j) (hn : j.line = n) : j.isHeld = false := by
  have absent := List.find?_eq_none.mp h id (mem_allJobs id)
  simp only [hj] at absent
  simpa [hn] using absent

end Sys2Proof.Machine
end

