-- ==== Sys2Proof/Laws/PerInstr.lean ====
section
/-! SUPPORT. A law of every command as syntax: the frame of a well-formed request keeps within the count of R166. One lemma
per command. -/

namespace Sys2Proof.Laws

open Machine

/-- The type, tag and payload of the frame that brings a request (R178); none for an event. -/
def requestFrame : Instr → Option (Byte × Byte × List Byte)
  | .powerOnReset _ _ _ | .sampleArrival _ | .scanFault _ | .faultRecovery _ | .seizure _ | .idWindowEnd _
  | .trip _ | .digit _ | .clear _ | .callerHangUp _ | .revertCleared _ | .receiverReturn _ | .stepBoundary _
  | .noAnswer _ | .noCapacity _ | .starved _ | .permanentLoop _ | .callerStayed _ | .startTimeout _
  | .recovery _ | .idleStop _ | .ready _ | .readyLost _ | .overload _ | .govlWithdrawn _ | .signalAtStart _
  | .stormAssertion | .stormDeassertion | .started _ | .frameReceived _ | .characterTimeout
  | .transmissionComplete _ | .characterArrival _ _ => none
  | .unknownRequest type tag payload => some (type, tag, payload)
  | .profileLoad tag line profile => some (0x01#8, tag, line :: profile.bytes)
  | .profileRead tag line selector => some (0x02#8, tag, [line, selector])
  | .profileClear tag line => some (0x03#8, tag, [line])
  | .cadenceLoad tag pattern bursts => some (0x04#8, tag, pattern :: toByte bursts.length :: burstBytes bursts)
  | .cadenceRead tag pattern => some (0x05#8, tag, [pattern])
  | .ring tag line digit cycles => some (0x06#8, tag, [line, digit, cycles])
  | .generalRing tag line cycles => some (0x07#8, tag, [line, cycles])
  | .cancel tag line => some (0x08#8, tag, [line])
  | .revert tag line called => some (0x09#8, tag, [line, called])
  | .release tag line => some (0x0A#8, tag, [line])
  | .block tag line => some (0x0B#8, tag, [line])
  | .unblock tag line => some (0x0C#8, tag, [line])
  | .jobRead tag job => some (0x0D#8, tag, [job])
  | .phaseRead tag channel => some (0x0E#8, tag, [channel])
  | .generatorSet tag channel nominal => some (0x0F#8, tag, [channel, nominal])
  | .generatorReset tag channel => some (0x10#8, tag, [channel])
  | .hold tag mode => some (0x11#8, tag, [mode])
  | .resume tag => some (0x12#8, tag, [])
  | .maskSet tag masks => some (0x13#8, tag, [masks])
  | .summaryRead tag => some (0x14#8, tag, [])
  | .summaryAck tag target classes => some (0x15#8, tag, [target, classes])
  | .lineStatus tag line => some (0x16#8, tag, [line])
  | .softReset tag => some (0x17#8, tag, [])

theorem burstBytes_length (bursts : List (Byte × Byte)) : (burstBytes bursts).length = 2 * bursts.length := by
  simp [burstBytes, List.length_flatMap, Nat.mul_comm]

theorem profileBytes_length (p : RawProfile) : p.bytes.length = 10 + 8 * p.parties.length := by
  simp [RawProfile.bytes, RawParty.bytes, List.length_flatMap]
  omega

end Sys2Proof.Laws

/-- A well-formed request has a payload that fits a frame (R166). -/
def Sys2Proof.Laws.WellFormedFrame.Statement (i : Sys2Proof.Instr) : Prop :=
  i.wf = true → ∀ frame, Sys2Proof.Laws.requestFrame i = some frame → frame.2.2.length ≤ Sys2Proof.maxPayload

namespace Sys2Proof.Laws

open Machine

theorem WellFormedFrame.powerOnReset (rate1 rate0 storm : Bool) :
    WellFormedFrame.Statement (.powerOnReset rate1 rate0 storm) := by
  intro _ _ h
  cases h

theorem WellFormedFrame.sampleArrival (reply : BitVec 26) :
    WellFormedFrame.Statement (.sampleArrival reply) := by
  intro _ _ h
  cases h

theorem WellFormedFrame.scanFault (reply : BitVec 26) :
    WellFormedFrame.Statement (.scanFault reply) := by
  intro _ _ h
  cases h

theorem WellFormedFrame.faultRecovery (reply : BitVec 26) :
    WellFormedFrame.Statement (.faultRecovery reply) := by
  intro _ _ h
  cases h

theorem WellFormedFrame.seizure (reply : BitVec 26) :
    WellFormedFrame.Statement (.seizure reply) := by
  intro _ _ h
  cases h

theorem WellFormedFrame.idWindowEnd (reply : BitVec 26) :
    WellFormedFrame.Statement (.idWindowEnd reply) := by
  intro _ _ h
  cases h

theorem WellFormedFrame.trip (reply : BitVec 26) :
    WellFormedFrame.Statement (.trip reply) := by
  intro _ _ h
  cases h

theorem WellFormedFrame.digit (reply : BitVec 26) :
    WellFormedFrame.Statement (.digit reply) := by
  intro _ _ h
  cases h

theorem WellFormedFrame.clear (reply : BitVec 26) :
    WellFormedFrame.Statement (.clear reply) := by
  intro _ _ h
  cases h

theorem WellFormedFrame.callerHangUp (reply : BitVec 26) :
    WellFormedFrame.Statement (.callerHangUp reply) := by
  intro _ _ h
  cases h

theorem WellFormedFrame.revertCleared (reply : BitVec 26) :
    WellFormedFrame.Statement (.revertCleared reply) := by
  intro _ _ h
  cases h

theorem WellFormedFrame.receiverReturn (reply : BitVec 26) :
    WellFormedFrame.Statement (.receiverReturn reply) := by
  intro _ _ h
  cases h

theorem WellFormedFrame.stepBoundary (order : BoundaryOrder) :
    WellFormedFrame.Statement (.stepBoundary order) := by
  intro _ _ h
  cases h

theorem WellFormedFrame.noAnswer (order : BoundaryOrder) :
    WellFormedFrame.Statement (.noAnswer order) := by
  intro _ _ h
  cases h

theorem WellFormedFrame.noCapacity (order : BoundaryOrder) :
    WellFormedFrame.Statement (.noCapacity order) := by
  intro _ _ h
  cases h

theorem WellFormedFrame.starved (order : BoundaryOrder) :
    WellFormedFrame.Statement (.starved order) := by
  intro _ _ h
  cases h

theorem WellFormedFrame.permanentLoop (order : BoundaryOrder) :
    WellFormedFrame.Statement (.permanentLoop order) := by
  intro _ _ h
  cases h

theorem WellFormedFrame.callerStayed (order : BoundaryOrder) :
    WellFormedFrame.Statement (.callerStayed order) := by
  intro _ _ h
  cases h

theorem WellFormedFrame.startTimeout (order : BoundaryOrder) :
    WellFormedFrame.Statement (.startTimeout order) := by
  intro _ _ h
  cases h

theorem WellFormedFrame.recovery (order : BoundaryOrder) :
    WellFormedFrame.Statement (.recovery order) := by
  intro _ _ h
  cases h

theorem WellFormedFrame.idleStop (order : BoundaryOrder) :
    WellFormedFrame.Statement (.idleStop order) := by
  intro _ _ h
  cases h

theorem WellFormedFrame.ready (channel : Chan) :
    WellFormedFrame.Statement (.ready channel) := by
  intro _ _ h
  cases h

theorem WellFormedFrame.readyLost (channel : Chan) :
    WellFormedFrame.Statement (.readyLost channel) := by
  intro _ _ h
  cases h

theorem WellFormedFrame.overload (channel : Chan) :
    WellFormedFrame.Statement (.overload channel) := by
  intro _ _ h
  cases h

theorem WellFormedFrame.govlWithdrawn (channel : Chan) :
    WellFormedFrame.Statement (.govlWithdrawn channel) := by
  intro _ _ h
  cases h

theorem WellFormedFrame.signalAtStart (order : BoundaryOrder) :
    WellFormedFrame.Statement (.signalAtStart order) := by
  intro _ _ h
  cases h

theorem WellFormedFrame.stormAssertion :
    WellFormedFrame.Statement (.stormAssertion) := by
  intro _ _ h
  cases h

theorem WellFormedFrame.stormDeassertion :
    WellFormedFrame.Statement (.stormDeassertion) := by
  intro _ _ h
  cases h

theorem WellFormedFrame.started (reply : BitVec 26) :
    WellFormedFrame.Statement (.started reply) := by
  intro _ _ h
  cases h

theorem WellFormedFrame.frameReceived (characters : List Byte) :
    WellFormedFrame.Statement (.frameReceived characters) := by
  intro _ _ h
  cases h

theorem WellFormedFrame.characterTimeout :
    WellFormedFrame.Statement (.characterTimeout) := by
  intro _ _ h
  cases h

theorem WellFormedFrame.transmissionComplete (lines : List LineNo) :
    WellFormedFrame.Statement (.transmissionComplete lines) := by
  intro _ _ h
  cases h

theorem WellFormedFrame.unknownRequest (type tag : Byte) (payload : List Byte) :
    WellFormedFrame.Statement (.unknownRequest type tag payload) := by
  intro h _ e
  cases e
  simp only [Instr.wf, Bool.and_eq_true, decide_eq_true_eq] at h
  exact h.2

theorem WellFormedFrame.profileLoad (tag line : Byte) (profile : RawProfile) :
    WellFormedFrame.Statement (.profileLoad tag line profile) := by
  intro h _ e
  cases e
  simp only [Instr.wf, decide_eq_true_eq] at h
  simp only [List.length_cons, profileBytes_length]
  omega

theorem WellFormedFrame.profileRead (tag line selector : Byte) :
    WellFormedFrame.Statement (.profileRead tag line selector) := by
  intro _ _ e
  cases e
  simp [maxPayload]

theorem WellFormedFrame.profileClear (tag line : Byte) :
    WellFormedFrame.Statement (.profileClear tag line) := by
  intro _ _ e
  cases e
  simp [maxPayload]

theorem WellFormedFrame.cadenceLoad (tag pattern : Byte) (bursts : List (Byte × Byte)) :
    WellFormedFrame.Statement (.cadenceLoad tag pattern bursts) := by
  intro h _ e
  cases e
  simp only [Instr.wf, decide_eq_true_eq] at h
  simp only [List.length_cons, burstBytes_length]
  omega

theorem WellFormedFrame.cadenceRead (tag pattern : Byte) :
    WellFormedFrame.Statement (.cadenceRead tag pattern) := by
  intro _ _ e
  cases e
  simp [maxPayload]

theorem WellFormedFrame.ring (tag line digit cycles : Byte) :
    WellFormedFrame.Statement (.ring tag line digit cycles) := by
  intro _ _ e
  cases e
  simp [maxPayload]

theorem WellFormedFrame.generalRing (tag line cycles : Byte) :
    WellFormedFrame.Statement (.generalRing tag line cycles) := by
  intro _ _ e
  cases e
  simp [maxPayload]

theorem WellFormedFrame.cancel (tag line : Byte) :
    WellFormedFrame.Statement (.cancel tag line) := by
  intro _ _ e
  cases e
  simp [maxPayload]

theorem WellFormedFrame.release (tag line : Byte) :
    WellFormedFrame.Statement (.release tag line) := by
  intro _ _ e
  cases e
  simp [maxPayload]

theorem WellFormedFrame.block (tag line : Byte) :
    WellFormedFrame.Statement (.block tag line) := by
  intro _ _ e
  cases e
  simp [maxPayload]

theorem WellFormedFrame.unblock (tag line : Byte) :
    WellFormedFrame.Statement (.unblock tag line) := by
  intro _ _ e
  cases e
  simp [maxPayload]

theorem WellFormedFrame.revert :
    WellFormedFrame.Statement (.revert tag line called) := by
  intro _ _ e
  cases e
  simp [maxPayload]

theorem WellFormedFrame.jobRead (tag job : Byte) :
    WellFormedFrame.Statement (.jobRead tag job) := by
  intro _ _ e
  cases e
  simp [maxPayload]

theorem WellFormedFrame.phaseRead (tag channel : Byte) :
    WellFormedFrame.Statement (.phaseRead tag channel) := by
  intro _ _ e
  cases e
  simp [maxPayload]

theorem WellFormedFrame.generatorSet (tag channel nominal : Byte) :
    WellFormedFrame.Statement (.generatorSet tag channel nominal) := by
  intro _ _ e
  cases e
  simp [maxPayload]

theorem WellFormedFrame.generatorReset (tag channel : Byte) :
    WellFormedFrame.Statement (.generatorReset tag channel) := by
  intro _ _ e
  cases e
  simp [maxPayload]

theorem WellFormedFrame.hold (tag mode : Byte) :
    WellFormedFrame.Statement (.hold tag mode) := by
  intro _ _ e
  cases e
  simp [maxPayload]

theorem WellFormedFrame.resume (tag : Byte) :
    WellFormedFrame.Statement (.resume tag) := by
  intro _ _ e
  cases e
  simp [maxPayload]

theorem WellFormedFrame.maskSet (tag masks : Byte) :
    WellFormedFrame.Statement (.maskSet tag masks) := by
  intro _ _ e
  cases e
  simp [maxPayload]

theorem WellFormedFrame.summaryRead (tag : Byte) :
    WellFormedFrame.Statement (.summaryRead tag) := by
  intro _ _ e
  cases e
  simp [maxPayload]

theorem WellFormedFrame.summaryAck (tag target classes : Byte) :
    WellFormedFrame.Statement (.summaryAck tag target classes) := by
  intro _ _ e
  cases e
  simp [maxPayload]

theorem WellFormedFrame.lineStatus (tag line : Byte) :
    WellFormedFrame.Statement (.lineStatus tag line) := by
  intro _ _ e
  cases e
  simp [maxPayload]

theorem WellFormedFrame.softReset (tag : Byte) :
    WellFormedFrame.Statement (.softReset tag) := by
  intro _ _ e
  cases e
  simp [maxPayload]

theorem WellFormedFrame.characterArrival (character : Byte) (stopBit : Bool) :
    WellFormedFrame.Statement (.characterArrival character stopBit) := by
  intro _ _ h
  cases h

end Sys2Proof.Laws
end

