-- ==== Sys2Proof/Tests/Slice0.lean ====
section
/-! SUPPORT. Tests of the model: ill-formed terms refused, worked cases of the spec, and for every statement with hypotheses
a state and operands that meet them. -/

namespace Sys2Proof.Tests

open Machine

/-! ## Well-formedness: one ill-formed term for each check -/

def noOrder : BoundaryOrder := { pieces := [], jobs := [], starts := [], signals := [] }

theorem test_wf_marker : Frame.wf [0xA4#8, 2, 1, 0, 0] = false := by decide
theorem test_wf_count_low : Frame.wf [0xA5#8, 1, 1, 0] = false := by decide
theorem test_wf_count_high : Frame.wf (0xA5#8 :: 251#8 :: List.replicate 252 0) = false := rfl
theorem test_wf_length : Frame.wf [0xA5#8, 2, 1, 0] = false := by decide
theorem test_wf_frame_ok : (Instr.frameReceived [0xA5#8, 2, 0x12, 0, 0xEC]).wf = true := by decide
theorem test_wf_pieces : (Instr.stepBoundary { noOrder with pieces := [.hold, .hold] }).wf = false := by decide
theorem test_wf_jobs : (Instr.noAnswer { noOrder with jobs := [3, 3] }).wf = false := by decide
theorem test_wf_starts : (Instr.starved { noOrder with starts := [1, 1] }).wf = false := by decide
theorem test_wf_signals : (Instr.signalAtStart { noOrder with signals := [(0, .grdy), (0, .grdy)] }).wf = false := by
  decide
theorem test_wf_reset_lines : (Instr.transmissionComplete [5, 5]).wf = false := by decide
theorem test_wf_known_type : (Instr.unknownRequest 0x17 0 []).wf = false := by decide
theorem test_wf_long_payload : (Instr.unknownRequest 0x18 0 (List.replicate 249 0)).wf = false := by
  simp only [Instr.wf, List.length_replicate]
  decide

def zeroParty : RawParty := ⟨0, 0, 0, 0, 0, 0, 0, 0⟩

theorem test_wf_parties : (Instr.profileLoad 0 0 ⟨0, 0, 0, 0, 0, 0, 0, List.replicate 30 zeroParty⟩).wf = false := by
  simp only [Instr.wf, List.length_replicate]
  decide
theorem test_wf_bursts : (Instr.cadenceLoad 0 0 (List.replicate 124 (0, 0))).wf = false := by
  simp only [Instr.wf, List.length_replicate]
  decide

/-! ## The table gives no bits -/

theorem test_no_word_spells_a_command (nbits w : Nat) : decodeTableWord nbits w = none := rfl
theorem test_fetch_word_changes_nothing (s : State) (nbits w : Nat) : s.withFetchWord nbits w = s := rfl

/-! ## Worked cases of the spec -/

/-- The parties of the worked case of section 1.1. -/
def party1 : Party :=
  { digit := 1, code := ⟨0, .tip, 0⟩, load := 2, idSide := .tip, idNominal := some 40, revertPermitted := true }
def party2 : Party :=
  { digit := 2, code := ⟨0, .tip, 1⟩, load := 3, idSide := .tip, idNominal := some 80, revertPermitted := true }
def party3 : Party :=
  { digit := 3, code := ⟨0, .ring, 0⟩, load := 1, idSide := .ring, idNominal := some 40, revertPermitted := true }
def party5 : Party :=
  { digit := 5, code := ⟨1, .tip, 2⟩, load := 4, idSide := .none, idNominal := none, revertPermitted := false }
def party7 : Party :=
  { digit := 7, code := ⟨0, .ring, 3⟩, load := 2, idSide := .ring, idNominal := some 100, revertPermitted := true }

/-- A profile with those parties. -/
def profile : Profile where
  resistance := 2000
  hookMargin := 24
  leakLimit := 40
  clearTime := 100
  ringTimeout := 10
  revertWait := 40
  parkTime := 120
  parties := [party1, party2, party3, party5, party7]

/-- Section 1.1: the loads by channel and side. -/
theorem test_code_loads :
    profile.codeLoad ⟨0, .tip, 0⟩ = 5 ∧ profile.codeLoad ⟨0, .ring, 3⟩ = 3 ∧ profile.codeLoad ⟨1, .tip, 2⟩ = 4 ∧
    profile.codeLoad ⟨1, .ring, 2⟩ = 0 := by decide

/-- Section 1.2: the two cadence loads. -/
theorem test_cadence_load_errors :
    cadenceErrors [⟨0, 3⟩, ⟨3, 2⟩, ⟨10, 0⟩, ⟨20, 6⟩] = [⟨.burstLength, 2⟩, ⟨.burstEnd, 3⟩, ⟨.burstOrder, 1⟩] := by decide
theorem test_cadence_without_gap : cadenceErrors [⟨0, 3⟩, ⟨6, 3⟩, ⟨12, 3⟩, ⟨18, 3⟩] = [⟨.noGap, 0⟩] := by decide

def rawParty (digit channel side pattern load idSide idNominal revertPermitted : Byte) : RawParty :=
  ⟨digit, channel, side, pattern, load, idSide, idNominal, revertPermitted⟩

/-- The five parties as PROFILE_LOAD carries them. -/
def rawParties : List RawParty :=
  [rawParty 1 1 0 0 2 0 40 1, rawParty 2 1 0 1 3 0 80 1, rawParty 3 1 1 0 1 1 40 1, rawParty 5 2 0 2 4 2 0 0,
    rawParty 7 1 1 3 2 1 100 1]

def rawProfile : RawProfile := ⟨2000, 24, 40, 100, 10, 40, 120, rawParties⟩

theorem test_profile_accepted : profileErrors rawProfile = [] ∧ rawProfile.keep = profile := by decide

/-- Section 1.4: the rejected profile. Sets {2, 5} and {1, 5} are bits 2, 5 and 1, 5. -/
theorem test_profile_rejected :
    profileErrors { rawProfile with clearTime := 10, parties := rawParties ++ [rawParty 3 1 0 1 6 0 70 1] } =
      [⟨.dupDigit, 36⟩, ⟨.codeClash, 34⟩, ⟨.idOverlap, 34⟩, ⟨.timerRange, 0⟩] := by decide

def lineIn (state : LineState) : Line := { Line.reset with active := some profile, state := state }

/-- Section 2.4: the derived values at L = 160. -/
theorem test_derived_values :
    let l := { lineIn .idle with baseline := 160 }
    l.leakage = 10 ∧ l.hookThreshold = 34 ∧ l.answerCurrent = 80 ∧ l.tripMargin = 40 ∧ l.tripThreshold = 50 ∧
    l.onThreshold ⟨0, .tip, 0⟩ = 60 ∧ baselineNext 160 12 = 162 := by decide

def idParties : List Party :=
  [{ party1 with digit := 3, idNominal := some 40 }, { party1 with digit := 4, idNominal := some 90 },
    { party3 with digit := 6 }, { party5 with digit := 8 }]

/-- Section 3.3: one household, and other combinations. -/
theorem test_identification :
    classify idParties (593 / 16) (32 / 16) =
      { outcome := .party, digit := some 3, candidates := 1, tipAverage := 37, ringAverage := 2 } ∧
    (classify idParties 90 0).digit = some 4 ∧ (classify idParties 0 0).digit = some 8 ∧
    (classify idParties 40 40).outcome = .unknown ∧ (classify idParties 130 0).outcome = .unknown ∧
    (classify idParties 6 40).outcome = .unknown := by decide

/-- Section 6.2: the general code list of line 4, and the budgets of R96. -/
theorem test_general_codes :
    generalCodes profile.parties = [⟨0, .tip, 6⟩, ⟨0, .ring, 6⟩, ⟨1, .tip, 6⟩] := by decide
theorem test_budgets :
    budget .running 13 0 = 13 ∧ budget .off 13 1 = 9 ∧ budget .starting 13 2 = 6 ∧ budget .failed 13 0 = 0 := by decide

/-- Section 11.1: the RING frame and its reply. -/
theorem test_ring_frame :
    frameOf 0x06 0x3C [0x02, 0x01, 0x00] = [0xA5#8, 0x05, 0x06, 0x3C, 0x02, 0x01, 0x00, 0xB6] := by decide
theorem test_ring_reply :
    Reply.frame { type := 0x06, tag := 0x3C, status := .ok, body := [0] } =
      [0xA5#8, 0x04, 0x86, 0x3C, 0x00, 0x00, 0x3A] := by decide

/-- R22, R23: a reply with presence low and an odd count of ones is good. -/
theorem test_reply_parity : replyGood 1#26 = true ∧ replyGood 3#26 = false ∧ replyGood 0x2000001#26 = false := by decide
theorem test_reply_fields :
    replySample (BitVec.ofNat 26 (200 * 131072 + 40 * 512 + 3 * 2)) = { loop := 200, tip := 40, ring := 3 } := by decide

/-! ## States the witnesses stand on -/

/-- A channel RUNNING with a budget of 12 RLU. -/
def running : Channel := { Channel.reset true false with state := .running, nominal := 12 }

/-- Every channel RUNNING, the start-up over, and the link at rest. -/
def base : State :=
  { State.reset with channels := tabulate fun _ => running, port := { Port.reset .r9600 with startUp := none } }

/-- Line 4 in a state. -/
def at4 (l : Line) : State := base.setLine 4 l

def atState (state : LineState) : State := at4 (lineIn state)

def context : RevertContext :=
  { caller := 3, called := 1, ringBack := true, retries := 0, waitSteps := 1, talkSteps := 8, job := none }

def named3 : IdResult := { outcome := .party, digit := some 3, candidates := 1, tipAverage := 0, ringAverage := 40 }

/-- Line 4 in SEIZED, seized by the party with digit 3. -/
def seized : State := at4 { lineIn .seized with seizeResult := some named3, hook := .offHookRestart }

/-- Job 0: a CALL to digit 1 on line 4. -/
def call : Job := Job.new 4 .call (some 1) [party1.code] 10 0

/-- Line 4 in RINGING with the WAITING job 0. -/
def waiting : State :=
  { (at4 (lineIn .ringing)).setJob 0 (some call) with
    sched := { Scheduler.reset with jobs := ((at4 (lineIn .ringing)).setJob 0 (some call)).sched.jobs, queue := [0],
                                    arrivalCounter := 1 } }

/-- Job 0 PLACED at offset 1, with its code applied at the boundary into step 2. -/
def placedCall : Job := { call with phase := .placed 1 0, rang := true }

def entry : Placement := { job := 0, offset := 1, begun := true, applied := some party1.code }

def placed : State :=
  { (at4 { lineIn .ringing with applied := some party1.code }).setJob 0 (some placedCall) with
    sched :=
      { jobs := ((at4 (lineIn .ringing)).setJob 0 (some placedCall)).sched.jobs
        queue := [], arrivalCounter := 1, placementCounter := 1, position := 2
        cells := tabulate fun c => tabulate fun k => if c = 0 ∧ 1 ≤ k.val ∧ k.val ≤ 6 then 5 else 0
        placements := [entry] } }

/-- Line 4 with job 0 HELD beneath the WAITING GENERAL job 1. -/
def heldCall : Job := { call with phase := .held }

def general : Job := { Job.new 4 .general none (generalCodes profile.parties) 10 1 with phase := .waiting }

def heldBeneath : State :=
  { waiting with
    sched :=
      { Scheduler.reset with
        jobs := ((waiting.setJob 0 (some heldCall)).setJob 1 (some general)).sched.jobs
        queue := [1], arrivalCounter := 2 } }

theorem profile_valid : profile.Valid where
  count := by decide
  parties := by
    intro q hq
    simp only [profile, List.mem_cons, List.not_mem_nil, or_false] at hq
    obtain rfl | rfl | rfl | rfl | rfl := hq <;> constructor <;> decide
  apart := by
    simp only [profile, List.pairwise_cons, List.mem_cons, List.not_mem_nil, or_false, forall_eq_or_imp, forall_eq]
    refine ⟨⟨?_, ?_, ?_, ?_⟩, ⟨?_, ?_, ?_⟩, ⟨?_, ?_⟩, ?_, ?_, ?_⟩ <;> first | (constructor <;> decide) | simp
  codeLoad := by
    rintro ⟨chan, side, pattern⟩
    cases side <;> revert chan pattern <;> decide
  resistance := by decide
  hookMargin := by decide
  leakLimit := by decide
  clearTime := by decide
  ringTimeout := by decide
  revertWait := by decide
  parkTime := by decide

/-! ## Invariants on concrete states -/

theorem line_inv (l : Line) (active : l.active = some profile ∨ l.active = none ∧ l.leaky = false) (staged : l.staged = none)
    (configured : l.state = .unconfigured ↔ l.active = none)
    (ranges : (l.lastGood.loop ≤ 255 ∧ l.lastGood.tip ≤ 255 ∧ l.lastGood.ring ≤ 255) ∧ l.missCount ≤ 3 ∧
      l.goodCount ≤ 50 ∧ l.baseline ≤ 4080 ∧ l.hook.disagreement ≤ 1 ∧ l.hook.breakCount ≤ 200 ∧ l.hook.makeCount ≤ 30 ∧
      l.hook.pulseCount ≤ 15 ∧ l.blanking ≤ 2 ∧ l.tripScore ≤ 3)
    (byState : (l.state ≠ .seized → l.hook.pulseCount = 0) ∧
      (l.state ≠ .ringing → l.applied = none ∧ l.blanking = 0 ∧ l.tripScore = 0) ∧
      (l.state ≠ .answerId → l.answered = none))
    (window : l.window = .empty ∧ l.state ≠ .seizeId ∧ l.state ≠ .answerId)
    (park : l.park.isSome ↔ l.state = .linger) (timer : ∀ timer ∈ l.park, 1 ≤ timer ∧ timer ≤ 480) : l.Inv where
  active := by
    intro p hp
    obtain h | ⟨h, -⟩ := active
    · rw [h] at hp
      exact Option.some.inj hp ▸ profile_valid
    · simp [h] at hp
  staged := by simp [staged]
  configured := configured
  stagedBeside _ := staged
  leaky h := by
    obtain h' | ⟨-, h'⟩ := active
    · simp [h'] at h
    · exact h'
  sample := ranges.1
  missCount := ranges.2.1
  goodCount := ranges.2.2.1
  baseline := ranges.2.2.2.1
  disagreement := ranges.2.2.2.2.1
  breakCount := ranges.2.2.2.2.2.1
  makeCount := ranges.2.2.2.2.2.2.1
  pulseCount := ranges.2.2.2.2.2.2.2.1
  digit := byState.1
  blanking := ranges.2.2.2.2.2.2.2.2.1
  tripScore := ranges.2.2.2.2.2.2.2.2.2
  ringing := byState.2.1
  window := by
    obtain ⟨w, a, b⟩ := window
    rw [w]
    cases h : l.state <;> simp_all [IdWindow.Inv]
  park := park
  parkRange := timer
  answered := byState.2.2

theorem reset_line_inv : Line.reset.Inv := by
  apply line_inv <;> decide

theorem base_port_inv : base.port.Inv where
  receiver := trivial
  requests := by decide
  busy := by decide
  held := by decide
  taken := by decide
  indications := by decide
  masks := by decide
  sending := ⟨rfl, rfl, rfl⟩

/-- The block invariants of a state that differs from `base` in line 4 and in the ring plan only. -/
theorem blocks_inv (s : State) (four : (s.line 4).Inv) (others : ∀ n, n ≠ 4 → s.line n = Line.reset)
    (channels : ∀ c, s.channel c = running ∨ s.channel c = { running with nominal := 1 }) (hold : s.hold = base.hold) (port : s.port = base.port) : s.BlocksInv where
  lines n := by
    by_cases h : n = 4
    · exact h ▸ four
    · exact others n h ▸ reset_line_inv
  channels c := by
    obtain h | h := channels c <;> rw [h] <;> constructor <;> decide
  hold := by
    rw [hold]
    exact ⟨by decide, rfl⟩
  port := port ▸ base_port_inv

/-- The ring plan's invariant from its parts, each of which can be evaluated on a concrete state. -/
theorem ring_plan_inv (s : State)
    (fields : ∀ id, ∀ j ∈ s.job id, (1 ≤ j.codes.length ∧ j.codes.length ≤ 8) ∧ j.codeIndex < j.codes.length ∧
      1 ≤ j.remaining ∧ j.rung + j.remaining ≤ 40 ∧ j.skips ≤ 48 ∧ (j.starved = true ↔ j.skips = 48) ∧
      j.waitingSteps < 480 ∧ (j.target = none ↔ j.kind = .general) ∧ (j.rang = true → j.offset.isSome))
    (ringing : ∀ id, ∀ j ∈ s.job id, (s.line j.line).state = .ringing)
    (present : ∀ n, (s.line n).state = .ringing → (s.activeJob n).isSome)
    (unique : ∀ a b, ∀ x ∈ s.job a, ∀ y ∈ s.job b, x.line = y.line → x.isHeld = y.isHeld → a = b)
    (held : ∀ id, ∀ j ∈ s.job id, j.isHeld = true →
      j.kind ≠ .general ∧ ∃ above, ∃ g ∈ s.job above, g.line = j.line ∧ g.kind = .general ∧ g.isHeld = false)
    (inService : ∀ id, ∀ j ∈ s.job id, s.channelOut j.codes = false)
    (once : s.sched.queue.Nodup)
    (waiting : ∀ id, id ∈ s.sched.queue ↔ ∃ j ∈ s.job id, j.isWaiting = true)
    (order : s.sched.queue.Pairwise fun a b => s.queuedBefore a b = true)
    (stamps : ∀ a b, ∀ x ∈ s.job a, ∀ y ∈ s.job b, x.arrival = y.arrival → a = b)
    (arrivals : s.sched.arrivalCounter ≤ stampLimit ∧ ∀ id, ∀ j ∈ s.job id, j.arrival < s.sched.arrivalCounter)
    (entries : ∀ e ∈ s.sched.placements, ∃ j ∈ s.job e.job, j.offset = some e.offset)
    (jobs : ∀ id, ∀ j ∈ s.job id, j.offset.isSome → ∃ e ∈ s.sched.placements, e.job = id)
    (placementOrder : s.sched.placements.Pairwise fun a b =>
      ∃ x ∈ s.job a.job, ∃ y ∈ s.job b.job, ∃ m ∈ x.stamp, ∃ n ∈ y.stamp, m < n)
    (placementStamps : s.sched.placementCounter ≤ stampLimit ∧
      ∀ id, ∀ j ∈ s.job id, ∀ m ∈ j.stamp, m < s.sched.placementCounter)
    (cells : ∀ c k, s.cell c k = (s.sched.placements.map fun e => s.entryDemand e c k).sum ∧
      s.cell c k ≤ (s.channel c).effective)
    (entry : ∀ e ∈ s.sched.placements, ∀ j ∈ s.job e.job, (s.line j.line).applied = e.applied)
    (line : ∀ n, (s.line n).applied.isSome → ∃ e ∈ s.sched.placements, ∃ j ∈ s.job e.job, j.line = n)
    (wanted : ∀ e ∈ s.sched.placements, ∀ j ∈ s.job e.job, ∀ q ∈ e.applied, e.begun = true ∧ s.wanted e j = some q)
    (hold : s.hold.state = .running ∨ s.hold.state = .holdPending ∧ s.appliedCount ≠ 0)
    (contexts : ∀ n, ∀ c ∈ (s.line n).revert,
      (∃ p ∈ (s.line n).active, (p.party c.caller).isSome ∧ (p.party c.called).isSome) ∧
      (s.line n).seizeResult.isSome ∧ c.retries ≤ 3 ∧ c.waitSteps ≤ 120 ∧ 1 ≤ c.waitSteps ∧ c.talkSteps ≤ 65535)
    (seized : ∀ n, (s.line n).state = .seized → (s.line n).seizeResult.isSome)
    (reverts : ∀ n, (s.line n).state = .revertWait ∨ (s.line n).state = .revertTalk → (s.line n).revert.isSome)
    (owners : ∀ n, ∀ c ∈ (s.line n).revert,
      (s.line n).state = .ringing ∧ (∃ id ∈ c.job, ∃ j ∈ s.job id, j.kind = .revert ∧ j.line = n) ∨
      c.job = none ∧ (s.line n).state = .revertWait)
    (owned : ∀ id, ∀ j ∈ s.job id, j.kind = .revert → ∃ c ∈ (s.line j.line).revert, c.job = some id)
    (answer : ∀ n, (s.line n).state ≠ .answerId) : s.RingPlanInv where
  jobs :=
    { fields := fun id j hj => by
        obtain ⟨a, b, c, d, e, f, g, h, i⟩ := fields id j hj
        exact ⟨a, b, c, d, e, f, g, h, i⟩
      ringing, present, unique, held, inService }
  queue := { once, waiting, order, stamps, counter := arrivals }
  placements := { entries, jobs, order := placementOrder, counter := placementStamps }
  cells := { sum := fun c k => (cells c k).1, budget := fun c k => (cells c k).2 }
  applied :=
    { entry, line
      wanted := fun e he j hj q hq =>
        ⟨(wanted e he j hj q hq).1, (wanted e he j hj q hq).2, hold.imp_right And.left⟩
      pending := fun h => by
        obtain running | ⟨-, applied⟩ := hold
        · exact absurd (running.symm.trans h) (by decide)
        · exact applied }
  reverts :=
    { fields := fun n c hc => by
        obtain ⟨a, b, d, e, f, g⟩ := contexts n c hc
        exact ⟨a, b, d, e, fun _ => f, g⟩
      seized
      job := fun n c hc => by
        obtain a | ⟨a, b⟩ := owners n c hc
        · exact .inl a
        · exact .inr ⟨a, .inl b⟩
      present := reverts
      ringing := owned
      answer := fun n h => absurd h (answer n) }

/-- Line 4 in REVERT_WAIT. -/
def revertWaiting : State :=
  at4 { lineIn .revertWait with revert := some { context with talkSteps := 0 }, seizeResult := some named3 }

/-- Line 4 in RINGING, and job 0 the REVERT job of its call. -/
def revertJob : Job := { call with kind := .revert }

def revertLine (applied : Option RingCode) : Line :=
  { lineIn .ringing with revert := some { context with job := some 0 }, seizeResult := some named3, applied := applied }

def revertRinging : State :=
  { waiting.setLine 4 (revertLine none) with
    sched := { waiting.sched with jobs := (waiting.setJob 0 (some revertJob)).sched.jobs } }

/-- The same with the REVERT job HELD beneath the GENERAL job 1. -/
def revertHeld : State :=
  { heldBeneath.setLine 4 (revertLine none) with
    sched :=
      { heldBeneath.sched with jobs := (heldBeneath.setJob 0 (some { revertJob with phase := .held })).sched.jobs } }

theorem idle_plan : (atState .idle).RingPlanInv := by apply ring_plan_inv <;> decide
theorem waiting_plan : waiting.RingPlanInv := by apply ring_plan_inv <;> decide
theorem placed_plan : placed.RingPlanInv := by apply ring_plan_inv <;> decide
theorem held_plan : heldBeneath.RingPlanInv := by apply ring_plan_inv <;> decide
theorem revert_plan : revertWaiting.RingPlanInv := by apply ring_plan_inv <;> decide
theorem revert_ringing_plan : revertRinging.RingPlanInv := by apply ring_plan_inv <;> decide
theorem revert_held_plan : revertHeld.RingPlanInv := by apply ring_plan_inv <;> decide

theorem idle_blocks : (atState .idle).BlocksInv :=
  blocks_inv _ (by apply line_inv <;> decide) (by decide) (by decide) rfl rfl
theorem waiting_blocks : waiting.BlocksInv := blocks_inv _ (by apply line_inv <;> decide) (by decide) (by decide) rfl rfl
theorem placed_blocks : placed.BlocksInv := blocks_inv _ (by apply line_inv <;> decide) (by decide) (by decide) rfl rfl
theorem held_blocks : heldBeneath.BlocksInv := blocks_inv _ (by apply line_inv <;> decide) (by decide) (by decide) rfl rfl
theorem revert_blocks : revertWaiting.BlocksInv :=
  blocks_inv _ (by apply line_inv <;> decide) (by decide) (by decide) rfl rfl

/-! ## Witnesses: states and operands that meet the hypotheses of each statement -/

def withPort (p : Port) : State := { base with port := p }

theorem link (s : State) (h : s.port = base.port) : s.LinkReady := by
  constructor <;> rw [h] <;> rfl

theorem link_at (l : Line) : (at4 l).LinkReady := link _ rfl

/-- `placed`, with a step boundary at the front of the queue. -/
def queued : State := { placed with pending := [.stepBoundary noOrder] }

theorem queued_blocks : queued.BlocksInv := ⟨placed_blocks.lines, placed_blocks.channels, placed_blocks.hold, base_port_inv⟩
theorem queued_plan : queued.RingPlanInv := by apply ring_plan_inv <;> decide

theorem witness_EveryStepKeepsHoldAndChannels :
    queued.hold.Inv ∧ (∀ c, (queued.channel c).Inv) ∧ (∃ t, step queued = .next t) ∧
    (let s : State := { queued with scan := { queued.scan with stormDue := true } }
     s.scan.Inv ∧ s.scan.stormDue = true ∧ ∃ t, step s = .next t) :=
  ⟨queued_blocks.hold, queued_blocks.channels, ⟨_, rfl⟩, fun _ => rfl, rfl, _, rfl⟩
theorem witness_EveryStepKeepsLineRecords : (∀ n, (queued.line n).Inv) ∧ ∃ t, step queued = .next t :=
  ⟨queued_blocks.lines, _, rfl⟩
theorem witness_EveryStepKeepsMessagePort : queued.port.Inv ∧ ∃ t, step queued = .next t :=
  ⟨queued_blocks.port, _, rfl⟩
theorem witness_EveryStepKeepsRingPlan : queued.BlocksInv ∧ queued.RingPlanInv ∧ ∃ t, step queued = .next t :=
  ⟨queued_blocks, queued_plan, _, rfl⟩

def request : Request := { type := 0x14, tag := 1, payload := [], marked := true }

theorem witness_FrameIsTakenOrDiscarded :
    (List.replicate 248 (0 : Byte)).length ≤ 248 ∧ base.port.receiver = .hunt ∧ base.port.busy.length < 4 ∧
    (let p := { base.port with requests := List.replicate 4 request, busy := List.replicate 3 ⟨1, 2⟩ }
     (withPort p).port.receiver = .hunt ∧ (withPort p).port.busy.length < 4 ∧ ¬ (withPort p).port.requests.length < 4) ∧
    2 ≤ (2#8).toNat ∧ [0#8, 0#8, 0#8].length = (2#8).toNat + 1 ∧ byteSum [2#8, 0#8, 0#8, 0#8] ≠ 0#8 :=
  ⟨by rw [List.length_replicate], by decide⟩
theorem witness_ReceiverTakesEachCharacter :
    base.port.receiver = .hunt ∧ (withPort { base.port with receiver := .count }).port.receiver = .count ∧
    (∀ collected, (withPort { base.port with receiver := .body 2 collected }).port.receiver = .body 2 collected) ∧
    [(0 : Byte)].length < (2#8).toNat ∧ (2#8).toNat ≤ [(0 : Byte), 0].length ∧ byteSum [2#8, 0, 0, 1] ≠ 0#8 ∧
    byteSum (2#8 :: ([0x14#8, 1] ++ [0xE9#8])) = 0#8 ∧ base.port.requests.length < 4 ∧
    (let p := { base.port with receiver := .body 2 [0x14#8, 1], requests := List.replicate 4 request }
     (withPort p).port.receiver = .body 2 [0x14#8, 1] ∧ ¬ (withPort p).port.requests.length < 4) :=
  ⟨rfl, rfl, fun _ => rfl, by decide⟩

def answer : Reply := { type := 0x14, tag := 1, status := .ok, body := [] }

theorem witness_TransmissionFreesItsSource :
    base.port.transmitter = none ∧
    (∀ source, ∃ s : State, s.port.transmitter = some { source := source, frame := [] } ∧ s.port.reply = some answer) ∧
    ¬ (answer.type = 0x17#8 ∧ answer.status = .ok) ∧
    (∃ s : State, s.port.transmitter = some { source := .indication, frame := [] } ∧
      (∃ sent rest, s.port.indications = sent :: rest ∧ rest ≠ [])) ∧
    (∃ s : State, s.port.transmitter = some { source := .indication, frame := [] } ∧ s.port.overrun = true ∧
      ∃ sent, s.port.indications = [sent]) ∧
    (∀ marked, let oldest : Request := { request with marked := marked }
     let s := withPort { base.port with requests := [oldest, request] }
     s.port.reply = none ∧ s.port.requests = [oldest, request] ∧ oldest.marked = marked ∧ oldest.payload.length ≤ 248) ∧
    base.port.requests = [] ∧ (withPort { base.port with reply := some answer }).port.reply ≠ none :=
  ⟨rfl, fun source => ⟨withPort { base.port with transmitter := some ⟨source, []⟩, reply := some answer }, rfl, rfl⟩,
    by decide,
    ⟨withPort { base.port with
        transmitter := some ⟨.indication, []⟩, indications := [.clear 0 .idle, .clear 1 .idle] }, rfl, _, _, rfl, by decide⟩,
    ⟨withPort { base.port with
        transmitter := some ⟨.indication, []⟩, overrun := true, indications := [.clear 0 .idle] }, rfl, rfl, _, rfl⟩,
    fun _ => ⟨rfl, rfl, rfl, Nat.zero_le _⟩, rfl, by decide⟩
theorem witness_TransmitterTakesFirstPresent :
    ∃ p : Port, (withPort p).port.transmitter = none ∧ (withPort p).port.busy = [] ∧ (withPort p).port.reply = none ∧
      (withPort { p with busy := [⟨1, 2⟩] }).port.busy = [⟨1, 2⟩] ∧
      (withPort { p with reply := some answer }).port.reply = some answer ∧
      (withPort { p with indications := [.clear 0 .idle] }).port.indications = [.clear 0 .idle] ∧
      (withPort { p with transmitter := some ⟨.reply, []⟩ }).port.transmitter ≠ none :=
  ⟨base.port, rfl, rfl, rfl, rfl, rfl, rfl, by decide⟩
theorem witness_UnknownAndEarlyRequestsAreRefused :
    (base.LinkReady ∧ (0#8).toNat = 0 ∧ 0x17 < (0x18#8).toNat) ∧
    ((withPort { base.port with startUp := some .power }).port.startUp ≠ none ∧
      (withPort { base.port with startUp := some .power }).port.receiver = .hunt ∧
      (withPort { base.port with startUp := some .power }).port.requests = []) ∧
    (let s := withPort { base.port with
        transmitter := some ⟨.reply, []⟩, reply := some answer, requests := [request] }
     s.port.transmitter = some { source := .reply, frame := [] } ∧ s.port.reply = some answer ∧ s.port.busy = [] ∧
      s.port.requests = [request] ∧ request.marked = true) ∧
    (1 ≤ (0x06#8).toNat ∧ (0x17#8).toNat ≤ 0x17 ∧ [16#8, 10#8].length ≠ 3 ∧ [16#8, 10#8, 41#8].length = 3 ∧
      ¬ (16#8).toNat ≤ 15 ∧ ¬ (10#8).toNat ≤ 9 ∧ ¬ (41#8).toNat ≤ 40 ∧ ¬ (61#8).toNat ≤ 60 ∧ ¬ (32#8).toNat ≤ 31 ∧
      ¬ (2#8).toNat ≤ 1 ∧ ¬ (8#8).toNat ≤ 7 ∧ ¬ 1 ≤ (0#8).toNat ∧ ¬ (5#8).toNat ≤ 4) :=
  ⟨⟨link _ rfl, by decide, by decide⟩, by decide, by decide, by decide⟩
theorem witness_PayloadsAreReadAsLaidOut :
    (∀ q ∈ rawParties, q.digit.toNat ≤ 9) ∧ rawParties.length < 256 ∧ [((0 : Byte), (6 : Byte))].length < 256 ∧
    (40 : Nat) ≤ 40 ∧ (60 : Nat) ≤ 60 ∧ (0x1F#8).toNat < 32 := by decide
theorem witness_ProfileLoadIsStagedOrRefused :
    (∀ state, (atState state).LinkReady ∧ ((atState state).line 4).state = state) ∧
    rawProfile.parties.length ≤ 29 ∧ (∀ q ∈ rawProfile.parties, q.digit.toNat ≤ 9) ∧ profileErrors rawProfile = [] ∧
    profileErrors { rawProfile with resistance := 6001 } ≠ [] :=
  ⟨fun _ => ⟨link_at _, rfl⟩, by decide⟩
theorem witness_AcceptedProfileIsValid :
    (∀ q ∈ rawProfile.parties, q.digit.toNat ≤ 9) ∧ profileErrors rawProfile = [] := by decide
/-- Nine parties that fail every party check of R12 to R14. -/
def wrongParties : List RawParty :=
  [rawParty 1 0 0 0 1 0 40 1, rawParty 1 1 0 8 1 1 40 1, rawParty 2 1 2 0 1 2 0 1, rawParty 3 1 0 0 7 2 0 1,
    rawParty 4 2 1 0 5 0 7 1, rawParty 5 2 1 1 5 0 80 1, rawParty 6 2 1 2 5 0 120 1, rawParty 7 2 1 3 5 1 100 1,
    rawParty 8 2 1 3 5 1 8 1]

/-- R12 to R14 by hand: parties 0, 1 share digit 1; 4 to 8 load (2, RING) with 25 RLU, and 7, 8 share pattern 3; 2, 3 are
both NONE, and the windows 64 to 96 and 96 to 144 of 5, 6 share 96. -/
theorem witness_ProfileErrorsNameWhatIsWrong :
    1 ≤ wrongParties.length ∧ wrongParties.length ≤ 10 ∧
    profileErrors { rawProfile with parties := wrongParties } =
      [⟨.dupDigit, 3⟩, ⟨.badChannel, 1⟩, ⟨.badPattern, 2⟩, ⟨.badSide, 4⟩, ⟨.loadRange, 8⟩, ⟨.codeLoad, 496⟩,
        ⟨.codeClash, 384⟩, ⟨.idRange, 16⟩, ⟨.idOverlap, 108⟩] := by decide
theorem witness_ValidProfileNamesOneParty :
    profile.Valid ∧ party1.idNominal = some 40 ∧ party1.idSide = .tip ∧ party3.idSide = .ring ∧ party5.idSide = .none ∧
    ([party1].countP fun q => q.matches 90 0) = 0 ∧ ([party1].countP fun q => q.matches 48 4) = 1 ∧
    ([party1, party1].countP fun q => q.matches 32 4) = 2 :=
  ⟨profile_valid, by decide⟩
theorem witness_ProfileClearByLineState :
    ∀ state, (atState state).LinkReady ∧ ((atState state).line 4).state = state := fun _ => ⟨link_at _, rfl⟩
theorem witness_CadenceLoadReplacesUnusedPattern :
    waiting.LinkReady ∧ (∃ id, ∃ j ∈ waiting.job id, ∃ q ∈ j.codes, q.pattern = 0) ∧
    (¬ ∃ id, ∃ j ∈ waiting.job id, ∃ q ∈ j.codes, q.pattern = 7) ∧ cadenceErrors [⟨0, 13⟩] = [⟨.onTotal, 0⟩] ∧
    cadenceErrors [] = [⟨.burstCount, 0⟩] ∧
    cadenceErrors [⟨0, 3⟩, ⟨4, 3⟩, ⟨8, 3⟩, ⟨12, 3⟩] = [] ∧ [((0 : Byte), (12 : Byte))].length ≤ 123 :=
  ⟨link _ rfl, by decide⟩
theorem witness_CadenceReadReturnsThePattern : base.LinkReady ∧ 7 < (8#8).toNat := ⟨link _ rfl, by decide⟩
theorem witness_ReadsReturnWhatStands :
    waiting.LinkReady ∧ waiting.job 1 = none ∧ waiting.job 0 = some call ∧ (waiting.line 4).seizeResult = none ∧
    seized.LinkReady ∧ (seized.line 4).seizeResult = some named3 ∧ (waiting.line 0).active = none :=
  ⟨link _ rfl, by decide, by decide, by decide, link_at _, by decide, by decide⟩

/-- Line 4 in IDLE, with every channel as given. -/
def channelsAre (ch : Channel) : State := { atState .idle with channels := tabulate fun _ => ch }

theorem witness_RingIsRefusedInOrder :
    (∀ state, (atState state).LinkReady ∧ ((atState state).line 4).state = state ∧
      ((atState state).line 4).leaky = false ∧ ((atState state).line 4).active = some profile) ∧
    ((at4 { lineIn .idle with leaky := true }).line 4).leaky = true ∧ (at4 { lineIn .idle with leaky := true }).LinkReady ∧
    profile.party 0 = none ∧ profile.party 1 = some party1 ∧
    (channelsAre { running with state := .failed }).LinkReady ∧
    ((channelsAre { running with state := .failed }).channel 0).state = .failed ∧
    (channelsAre { running with nominal := 4 }).LinkReady ∧
    ((channelsAre { running with nominal := 4 }).channel 0).nominal < profile.codeLoad party1.code ∧
    (heldBeneath.LinkReady ∧ (heldBeneath.line 4).state = .ringing ∧ heldBeneath.activeJob 4 = some 1 ∧
      heldBeneath.job 1 = some general ∧ general.kind = .general ∧ (heldBeneath.line 4).active = some profile) ∧
    (∀ ch, let s : State := { waiting with channels := tabulate fun _ => ch }
      s.LinkReady ∧ (s.line 4).state = .ringing ∧ s.job 0 = some call ∧ call.kind ≠ .general) ∧
    (∀ q ∈ generalCodes profile.parties, ({ running with nominal := 2 } : Channel).nominal < profile.codeLoad q) ∧
    generalCodes profile.parties ≠ [] :=
  ⟨fun _ => ⟨link_at _, rfl, rfl, rfl⟩, by decide, link_at _, by decide, by decide, link _ rfl, by decide, link _ rfl,
    by decide, ⟨link _ rfl, by decide⟩, fun _ => ⟨link _ rfl, rfl, rfl, by decide⟩, by decide⟩
theorem witness_RingCreatesCallJob :
    let s := channelsAre { running with nominal := 5 }
    s.LinkReady ∧ (s.line 4).state = .idle ∧ (s.line 4).leaky = false ∧ (s.line 4).active = some profile ∧
    profile.party 1 = some party1 ∧ (s.channel party1.code.chan).state ≠ .absent ∧
    (s.channel party1.code.chan).state ≠ .failed ∧
    profile.codeLoad party1.code ≤ (s.channel party1.code.chan).nominal ∧ s.job 0 = none ∧
    (∀ lower, lower < (0 : JobId) → s.job lower ≠ none) ∧ s.sched.arrivalCounter ≠ 4294967295 ∧
    ({ s with sched := { s.sched with arrivalCounter := 4294967295 } } : State).sched.arrivalCounter = 4294967295 :=
  ⟨link _ rfl, by decide⟩

def narrow : State := channelsAre { running with nominal := 1 }

theorem witness_GeneralRingHoldsAndCreates :
    let kept (s : State) : List RingCode :=
      (generalCodes profile.parties).filter fun q => decide (profile.codeLoad q ≤ (s.channel q.chan).nominal)
    let meets (s : State) (id : JobId) : Prop :=
      s.LinkReady ∧ s.BlocksInv ∧ s.RingPlanInv ∧ (s.line 4).leaky = false ∧ (s.line 4).active = some profile ∧
      s.channelOut (generalCodes profile.parties) = false ∧ s.job id = none ∧
      (∀ lower, lower < id → s.job lower ≠ none)
    (meets narrow 0 ∧ (narrow.line 4).state = .idle ∧ kept narrow = []) ∧
    (meets (atState .idle) 0 ∧ ((atState .idle).line 4).state = .idle ∧ kept (atState .idle) ≠ []) ∧
    (meets waiting 1 ∧ (waiting.line 4).state = .ringing ∧ kept waiting ≠ [] ∧ waiting.job 0 = some call) ∧
    (meets placed 1 ∧ (placed.line 4).state = .ringing ∧ kept placed ≠ [] ∧ placed.job 0 = some placedCall) ∧
    (meets heldBeneath 2 ∧ kept heldBeneath ≠ [] ∧ heldBeneath.job 1 = some general ∧ general.isHeld = false) :=
  ⟨⟨⟨link _ rfl, blocks_inv _ (by apply line_inv <;> decide) (by decide) (by decide) rfl rfl,
        by apply ring_plan_inv <;> decide, by decide⟩, by decide⟩,
    ⟨⟨link _ rfl, idle_blocks, idle_plan, by decide⟩, by decide⟩,
    ⟨⟨link _ rfl, waiting_blocks, waiting_plan, by decide⟩, by decide⟩,
    ⟨⟨link _ rfl, placed_blocks, placed_plan, by decide⟩, by decide⟩,
    ⟨⟨link _ rfl, held_blocks, held_plan, by decide⟩, by decide⟩⟩
theorem witness_CancelByLineState :
    (∀ state, (atState state).LinkReady ∧ ((atState state).line 4).state = state) ∧ waiting.LinkReady ∧
    (waiting.line 4).state = .ringing ∧ waiting.activeJob 4 = some 0 ∧ revertWaiting.LinkReady ∧
    (revertWaiting.line 4).revert = some { context with talkSteps := 0 } :=
  ⟨fun _ => ⟨link_at _, rfl⟩, link _ rfl, by decide, by decide, link _ rfl, by decide⟩
theorem witness_JobEndReleasesTheJob :
    (waiting.RingPlanInv ∧ waiting.job 0 = some call ∧ call.kind ≠ .revert ∧ call.isHeld = false ∧
      waiting.heldJob 4 = none) ∧
    (placed.RingPlanInv ∧ placed.job 0 = some placedCall ∧ placedCall.isHeld = false ∧ placed.heldJob 4 = none) ∧
    (revertRinging.RingPlanInv ∧ revertRinging.job 0 = some revertJob ∧ revertJob.kind = .revert ∧
      revertJob.isHeld = false ∧ revertRinging.heldJob 4 = none ∧
      (revertRinging.line 4).revert = some { context with job := some 0 } ∧ revertRinging.port.indications.length < 31) ∧
    (revertHeld.job 0 = some { revertJob with phase := .held } ∧
      (revertHeld.line 4).revert = some { context with job := some 0 }) :=
  ⟨⟨waiting_plan, by decide⟩, ⟨placed_plan, by decide⟩, ⟨revert_ringing_plan, by decide⟩, by decide⟩
theorem witness_HeldJobFollowsItsGeneralJob :
    heldBeneath.RingPlanInv ∧ heldBeneath.job 1 = some general ∧ general.kind = .general ∧ general.isHeld = false ∧
    heldBeneath.job 0 = some heldCall ∧ heldCall.line = general.line ∧ heldCall.isHeld = true ∧
    heldBeneath.channelOut heldCall.codes = false ∧ heldBeneath.port.indications.length < 30 ∧
    (revertHeld.RingPlanInv ∧ revertHeld.job 1 = some general ∧
      revertHeld.job 0 = some { revertJob with phase := .held } ∧
      (revertHeld.line 4).revert = some { context with job := some 0 }) :=
  ⟨held_plan, by decide, by decide, by decide, by decide, by decide, by decide, by decide, by decide, revert_held_plan,
    by decide⟩
theorem witness_EntryToIdleIsAlwaysTheSame :
    (let l := placed.line 4
     l.state = .ringing ∧ l.applied.isSome ∧ l.window = .empty ∧ l.answered = none) ∧
    (let l : Line := { lineIn .answerId with window := { IdWindow.empty with arrivals := 3 } }
     l.state = .answerId ∧ l.applied = none ∧ l.blanking = 0 ∧ l.tripScore = 0) ∧
    (let l := base.line 4
     l.state = .unconfigured ∧ l.applied = none ∧ l.blanking = 0 ∧ l.tripScore = 0 ∧ l.window = .empty ∧
     l.answered = none) := by decide
theorem witness_DerivedValuesAndLeakyFlag :
    let l := { lineIn .idle with baseline := 4080 }
    l.active = some profile ∧ profile.Valid ∧ l.baseline ≤ 4080 ∧ Line.reset.active = none ∧
    profile.leakLimit < (656 + 8) / 16 ∧ (576 + 8) / 16 + 4 ≤ profile.leakLimit ∧
    profile.leakLimit < (592 + 8) / 16 + 4 ∧ (640 + 8) / 16 ≤ profile.leakLimit :=
  ⟨rfl, profile_valid, by decide⟩
theorem witness_ReleaseByHookState :
    ∀ state offHook,
      let s := at4 { lineIn state with hook := { (lineIn state).hook with offHook := offHook }, revert := some context }
      s.LinkReady ∧ (s.line 4).state = state ∧ (s.line 4).hook.offHook = offHook ∧ (s.line 4).active = some profile ∧
      (s.line 4).revert = some context := fun _ _ => ⟨link_at _, rfl, rfl, rfl, rfl⟩
theorem witness_BlockEndsWhatTheLineLeaves :
    (∀ state, (atState state).LinkReady ∧ ((atState state).line 4).state = state) ∧
    (revertWaiting.BlocksInv ∧ revertWaiting.RingPlanInv ∧ (revertWaiting.line 4).state ≠ .unconfigured ∧
      (revertWaiting.line 4).revert.isSome) ∧
    (heldBeneath.BlocksInv ∧ heldBeneath.RingPlanInv ∧
      ∃ id, ∃ j ∈ heldBeneath.job id, j.line = 4 ∧ j.kind ≠ .revert) ∧
    (let s : State := { heldBeneath with port := { base.port with masks := 0 } }
     s.BlocksInv ∧ s.RingPlanInv ∧ s.port.masks = 0#8 ∧ s.port.indications.length ≤ 29 ∧ s.activeJob 4 = some 1 ∧
     s.heldJob 4 = some 0) :=
  ⟨fun _ => ⟨link_at _, rfl⟩, ⟨revert_blocks, revert_plan, by decide⟩, ⟨held_blocks, held_plan, by decide⟩,
    ⟨held_blocks.lines, held_blocks.channels, held_blocks.hold, { base_port_inv with masks := by decide }⟩,
    by apply ring_plan_inv <;> decide, by decide⟩
theorem witness_RevertIsCheckedThenTaken :
    let by3 (outcome : IdOutcome) (leaky : Bool) (ch : Channel) : State :=
      { at4 { lineIn .seized with seizeResult := some { named3 with outcome := outcome }, leaky := leaky } with
        channels := tabulate fun _ => ch }
    (∀ state, (atState state).LinkReady ∧ ((atState state).line 4).state = state ∧
      ((atState state).line 4).seizeResult = none) ∧
    (∀ outcome leaky ch, (by3 outcome leaky ch).LinkReady ∧ ((by3 outcome leaky ch).line 4).state = .seized ∧
      ((by3 outcome leaky ch).line 4).leaky = leaky ∧ ((by3 outcome leaky ch).line 4).active = some profile) ∧
    ((by3 .unknown false running).line 4).seizeResult = some { named3 with outcome := .unknown } ∧
    profile.party 0 = none ∧ profile.party 3 = some party3 ∧ profile.party 1 = some party1 ∧
    profile.party 5 = some party5 ∧ party5.revertPermitted = false ∧ party1.revertPermitted = true ∧
    party3.revertPermitted = true ∧
    ((by3 .party false { running with state := .failed }).channel 0).state = .failed ∧
    ((by3 .party false { running with nominal := 4 }).channel 0).nominal < profile.codeLoad party1.code ∧
    (∀ q ∈ [party1.code, party3.code],
      ((by3 .party false { running with nominal := 5 }).channel q.chan).state ≠ .absent ∧
      ((by3 .party false { running with nominal := 5 }).channel q.chan).state ≠ .failed ∧
      profile.codeLoad q ≤ ((by3 .party false { running with nominal := 5 }).channel q.chan).nominal) :=
  ⟨fun _ => ⟨link_at _, rfl, rfl⟩, fun _ _ _ => ⟨link _ rfl, rfl, rfl, rfl⟩, by decide⟩
theorem witness_GeneratorSetByChannelState :
    placed.LinkReady ∧ (placed.channel 0).state = .running ∧ (∀ k, placed.cell 0 k ≤ 5) ∧ (∃ k, placed.cell 0 k = 5) ∧
    (channelsAre (Channel.reset false false)).LinkReady ∧
    ((channelsAre (Channel.reset false false)).channel 0).state = .absent ∧
    (∀ k, (channelsAre (Channel.reset false false)).cell 0 k ≤ 0) :=
  ⟨link _ rfl, by decide, by decide, by decide, link _ rfl, by decide, by decide⟩
theorem witness_GeneratorResetReturnsAFailedChannel :
    (channelsAre { running with state := .failed }).LinkReady ∧ 4 < (5#8).toNat ∧ (0#8).toNat < 1 ∧
    ((channelsAre { running with state := .failed }).channel 3).state = .failed ∧ base.LinkReady ∧
    (base.channel 3).state ≠ .failed :=
  ⟨link _ rfl, by decide, by decide, by decide, link _ rfl, by decide⟩
theorem witness_SignalsByChannelState :
    ∀ ch, (channelsAre ch).channel 0 = ch := fun _ => rfl
/-- `placed`, with line 5 in RINGING for the WAITING job 1. -/
def call5 : Job := { Job.new 5 .call (some 1) [party1.code] 10 1 with skips := 2 }

def twoRinging : State :=
  { (placed.setLine 5 (lineIn .ringing)).setJob 1 (some call5) with
    sched :=
      { placed.sched with jobs := (placed.setJob 1 (some call5)).sched.jobs, queue := [1], arrivalCounter := 2 } }

theorem two_plan : twoRinging.RingPlanInv := by apply ring_plan_inv <;> decide
theorem witness_LostChannelEndsItsJobs :
    placed.RingPlanInv ∧ ({ running with state := .failed } : Channel).state = .failed ∧
    (Channel.reset false false).state = .absent ∧ placed.job 0 = some placedCall ∧ placedCall.uses 1 = false ∧
    placedCall.uses 0 = true ∧ heldBeneath.RingPlanInv ∧ heldBeneath.job 0 = some heldCall ∧ heldCall.phase = .held ∧
    heldCall.uses 1 = false ∧ general.uses 1 = true ∧ general.line = heldCall.line ∧ heldBeneath.job 1 = some general ∧
    (twoRinging.RingPlanInv ∧ twoRinging.job 0 = some placedCall ∧ twoRinging.job 1 = some call5 ∧
      call5.uses 0 = true ∧ (0 : JobId) < 1 ∧ placedCall.isHeld = false ∧ call5.isHeld = false ∧
      ((List.finRange 32).countP fun id => (twoRinging.job id).any fun j => j.uses 0) = 2) ∧
    (revertRinging.RingPlanInv ∧ revertRinging.job 0 = some revertJob ∧ revertJob.uses 0 = true ∧
      revertJob.kind = .revert) ∧
    ({ base.port with masks := 0 } : Port).masks.getLsbD 1 = false ∧
    ({ base.port with masks := 0 } : Port).masks.getLsbD 2 = false ∧ base.port.indications.length + 2 * 2 + 1 ≤ 32 :=
  ⟨placed_plan, by decide, by decide, by decide, by decide, by decide, held_plan, by decide, by decide, by decide, by decide,
    by decide, by decide, ⟨two_plan, by decide⟩, ⟨revert_ringing_plan, by decide⟩, by decide⟩
theorem witness_OverloadRestoresTheBudget :
    placed.JobsInv ∧ placed.QueueInv ∧ placed.PlacementsInv ∧
    (∀ d k, placed.cell d k = (placed.sched.placements.map fun e => placed.entryDemand e d k).sum) ∧
    placed.job 0 = some placedCall ∧ placedCall.offset = some 1 ∧
    (∀ k, placed.cell 0 k ≤ (placed.channel 0).effective ∨ placed.demand placedCall 1 0 k = 0) ∧
    placed.sched.placements = [] ++ entry :: [] ∧ (placed.line 4).applied = entry.applied ∧
    (entry.applied.any fun q => q.chan == 0) = true ∧ (entry.applied.any fun q => q.chan == 1) = false :=
  ⟨placed_plan.jobs, placed_plan.queue, placed_plan.placements, placed_plan.cells.sum, by decide⟩
theorem witness_HoldAndResumeByHoldState :
    ∀ h, ({ placed with hold := h } : State).LinkReady ∧ ({ placed with hold := h } : State).hold = h ∧
      ({ placed with hold := h } : State).appliedCount ≠ 0 ∧ base.appliedCount = 0 :=
  fun _ => ⟨link _ rfl, rfl, show placed.appliedCount ≠ 0 by decide, by decide⟩
/-- `placed` at the start of a round, whose read of STORM is still to come. -/
def due : State := { placed with scan := { placed.scan with stormDue := true } }

theorem witness_StormReadsMoveTheFlag :
    (∀ storm, let s : State := { due with hold := { due.hold with storm := storm } }
      s.scan.position = 0 ∧ s.scan.stormDue = true ∧ s.hold.storm = storm) ∧
    placed.scan.stormDue = false := ⟨fun _ => ⟨rfl, rfl, rfl⟩, rfl⟩
theorem witness_CutRemovesEveryCode :
    placed.PlacementsInv ∧ placed.JobsInv ∧
    (∀ e ∈ placed.sched.placements, ∀ j ∈ placed.job e.job, (placed.line j.line).applied = e.applied) ∧
    (∀ n, (placed.line n).applied.isSome →
      ∃ e ∈ placed.sched.placements, ∃ j ∈ placed.job e.job, j.line = n) ∧ placed.appliedCount ≠ 0 :=
  ⟨placed_plan.placements, placed_plan.jobs, placed_plan.applied.entry, placed_plan.applied.line, by decide⟩
theorem witness_MaskSetReplacesTheMasks :
    base.LinkReady ∧ 32 ≤ (32#8).toNat ∧ (31#8).toNat < 32 ∧ base.port.masks.getLsbD 0 = true ∧
    (withPort { base.port with masks := 0 }).port.masks.getLsbD 0 = false ∧ base.port.indications.length < 32 :=
  ⟨link _ rfl, by decide⟩
theorem witness_SummaryFlagsAreReadAndCleared :
    base.LinkReady ∧ 16 < (17#8).toNat ∧ ((16#8).toNat = 16 ∧ 4 ≤ (4#8).toNat) ∧
    ((15#8).toNat < 16 ∧ 16 ≤ (16#8).toNat) := ⟨link _ rfl, by decide⟩
theorem witness_SoftResetKeepsWhatTheRulesKeep :
    let sent : Reply := { type := 0x17, tag := 1, status := .ok, body := [] }
    let s : State := { heldBeneath with
      port := { base.port with transmitter := some ⟨.reply, sent.frame⟩, reply := some sent } }
    s.port.transmitter = some { source := .reply, frame := sent.frame } ∧ s.port.reply = some sent ∧
    sent.type = 0x17#8 ∧ sent.status = .ok := by decide

/-! ### Sample arrivals -/

/-- A good reply with these values. -/
def reply (loop tip ring : Nat) : BitVec 26 :=
  let fields := loop * 131072 + tip * 512 + ring * 2
  BitVec.ofNat 26 (fields + (1 + (List.range 25).countP fun i => fields.testBit i) % 2)

/-- A reply of 26 zeros, whose count of ones is even. -/
def noReply : BitVec 26 := 0

/-- Line 4, whose exchange is under way. -/
def hears (l : Line) : State := { at4 l with scan := { base.scan with position := 4 } }

theorem witness_ArrivalKeepsScanRecord :
    (reply 200 40 3).getLsbD 25 = false ∧ ((List.range 25).countP fun i => (reply 200 40 3).getLsbD i) % 2 = 1 ∧
    ¬ ((List.range 25).countP fun i => noReply.getLsbD i) % 2 = 1 ∧
    waiting.job 0 = some call ∧ call.line ≠ waiting.scan.position ∧
    (let s : State := { base with
       scan := { base.scan with position := 15 }, port := { base.port with startUp := some .power } }
     s.scan.position = 15 ∧ s.port.startUp = some .power) := by decide
theorem witness_ScanFaultAndRecovery :
    replyGood noReply = false ∧ replyGood (reply 0 0 0) = true ∧
    (let s := hears { lineIn .idle with missCount := 2 }
     s.scan.position = 4 ∧ 2 ≤ (s.line 4).missCount ∧ (s.line 4).state ≠ .unconfigured ∧ (s.line 4).state ≠ .fault) ∧
    (∀ count, let s := hears { lineIn .fault with goodCount := count }
     s.scan.position = 4 ∧ (s.line 4).goodCount = count ∧ (s.line 4).state = .fault) ∧
    (base.line 0).state = .unconfigured ∧
    (∀ missCount goodCount, let s := hears { lineIn .blocked with missCount := missCount, goodCount := goodCount }
      s.scan.position = 4 ∧ (s.line 4).state = .blocked ∧ (s.line 4).missCount = missCount ∧
      (s.line 4).goodCount = goodCount) ∧
    (1 : Nat) < 2 :=
  ⟨by decide, by decide, by decide, fun _ => ⟨rfl, rfl, rfl⟩, by decide, fun _ _ => ⟨rfl, rfl, rfl, rfl⟩, by decide⟩

/-- A hook filter ON-HOOK or OFF-HOOK with these counts. -/
def filter (offHook : Bool) (disagreement breakCount makeCount pulseCount : Nat) : HookFilter :=
  { offHook, disagreement, breakCount, makeCount, pulseCount }

theorem witness_SeizureTakesTwoSamples :
    (∀ disagreement,
      let l := (hears { lineIn .idle with hook := filter false disagreement 0 0 0 }).line 4
      l.state = .idle ∧ l.active = some profile ∧ l.hook.offHook = false ∧ l.hook.breakCount = 0 ∧
      l.hook.disagreement = disagreement ∧ l.baseline = 0) ∧
    replyGood (reply 23 0 0) = true ∧ (replySample (reply 23 0 0)).loop < min 255 ((0 + 8) / 16 + profile.hookMargin) ∧
    replyGood (reply 24 0 0) = true ∧ min 255 ((0 + 8) / 16 + profile.hookMargin) ≤ (replySample (reply 24 0 0)).loop :=
  ⟨fun _ => ⟨rfl, rfl, rfl, rfl, rfl, rfl⟩, by decide⟩
theorem witness_DialPulsesMakeDigits :
    (∀ hook, let s := hears { lineIn .seized with hook := hook }
      s.scan.position = 4 ∧ (s.line 4).hook = hook ∧ (s.line 4).state = .seized ∧ (s.line 4).active = some profile ∧
      (s.line 4).baseline = 0) ∧
    replyGood (reply 24 0 0) = true ∧ min 255 ((0 + 8) / 16 + profile.hookMargin) ≤ (replySample (reply 24 0 0)).loop ∧
    ((filter false 1 12 0 3).breakCount ≤ 12 ∧ (filter false 1 12 0 3).disagreement = 1) ∧
    (12 < (filter false 1 13 0 3).breakCount ∧ (filter false 1 13 0 3).breakCount < profile.clearTime) ∧
    profile.clearTime ≤ (filter false 1 100 0 3).breakCount ∧
    ((filter true 0 0 29 10).offHook = true ∧ (filter true 0 0 29 10).makeCount = 29 ∧
      (filter true 0 0 29 10).pulseCount ≤ 10) ∧
    (¬ (filter true 0 0 29 11).pulseCount ≤ 10) ∧
    (∀ state hook, let s := hears { lineIn state with hook := hook }
      s.scan.position = 4 ∧ (s.line 4).hook = hook ∧ (s.line 4).state = state ∧ (s.line 4).active = some profile ∧
      (s.line 4).missCount < 2 ∧ (s.line 4).baseline = 0) ∧
    replyGood (reply 23 0 0) = true ∧ (replySample (reply 23 0 0)).loop < min 255 ((0 + 8) / 16 + profile.hookMargin) ∧
    replyGood noReply = false ∧
    (1 ≤ (filter false 0 98 0 0).breakCount ∧ (filter false 0 98 0 0).breakCount + 1 < profile.clearTime) ∧
    (filter true 0 0 28 5).makeCount < 30 ∧ (filter true 0 0 30 0).makeCount = 30 ∧
    (filter true 0 0 29 0).pulseCount = 0 :=
  ⟨fun _ => ⟨rfl, rfl, rfl, rfl, rfl⟩, by decide, by decide, by decide, by decide, by decide, by decide, by decide,
    fun _ _ => ⟨rfl, rfl, rfl, rfl, show (0 : Nat) < 2 by decide, rfl⟩, by decide⟩
theorem witness_BreakReachesClearTime :
    (∀ state revert,
      let s := hears { lineIn state with hook := filter false 0 99 0 0, revert := revert }
      s.scan.position = 4 ∧ (s.line 4).state = state ∧ (s.line 4).revert = revert ∧ (s.line 4).active = some profile ∧
      (s.line 4).hook.offHook = false ∧ 1 ≤ (s.line 4).hook.breakCount ∧
      (s.line 4).hook.breakCount + 1 = profile.clearTime ∧ (s.line 4).baseline = 0) ∧
    replyGood (reply 23 0 0) = true ∧ (replySample (reply 23 0 0)).loop < min 255 ((0 + 8) / 16 + profile.hookMargin) ∧
    profile.party context.caller = some party3 ∧ profile.party context.called = some party1 ∧
    (∀ q ∈ [party1.code, party3.code], (base.channel q.chan).state ≠ .absent ∧ (base.channel q.chan).state ≠ .failed) ∧
    (∃ q ∈ [party1.code, party3.code], ((channelsAre { running with state := .failed }).channel q.chan).state = .failed) ∧
    base.job 0 = none ∧ (∀ lower, lower < (0 : JobId) → base.job lower ≠ none) :=
  ⟨fun _ _ => ⟨rfl, rfl, rfl, rfl, rfl, show (1 : Nat) ≤ 99 by decide, rfl, rfl⟩, by decide⟩
theorem witness_WindowEndsAtTwentyArrivals :
    (∀ state kind arrivals phase revert answered,
      let s := hears { lineIn state with
        window := { kind := kind, arrivals := arrivals, phase := phase, tipSum := 0, ringSum := 0 }
        revert := revert, answered := answered }
      s.scan.position = 4 ∧ (s.line 4).state = state ∧ (s.line 4).window.kind = kind ∧
      (s.line 4).window.arrivals = arrivals ∧ (s.line 4).active = some profile ∧ (s.line 4).missCount < 2 ∧
      (s.line 4).revert = revert ∧ (s.line 4).answered = answered) ∧
    replyGood (reply 200 40 3) = true ∧ (3 : Nat) < 4 ∧ ¬ (4 : Nat) < 4 ∧ (18 : Nat) < 19 ∧ context.retries < 3 ∧
    ¬ ({ context with retries := 3 } : RevertContext).retries < 3 ∧ named3.outcome = .party ∧
    named3.digit = some context.caller :=
  ⟨fun _ _ _ _ _ _ => ⟨rfl, rfl, rfl, rfl, rfl, show (0 : Nat) < 2 by decide, rfl, rfl⟩, by decide⟩

/-- `placed`, with the trip score at 3 and the exchange of line circuit 4 under way. -/
def tripping : State :=
  { placed.setLine 4 { lineIn .ringing with applied := some party1.code, tripScore := 3 } with
    scan := { base.scan with position := 4 } }

def holdPending : Hold := { state := .holdPending, mode := some .endOfBurst, cause := some .request, storm := false }

/-- The same in HOLD_PENDING, with the tripped job's code the last applied. -/
def trippingPending : State := { tripping with hold := holdPending }

/-- The GENERAL job of a line trips with a CALL or a REVERT job HELD beneath it. -/
def trippingHeld : State :=
  { heldBeneath.setLine 4 { lineIn .ringing with tripScore := 3 } with scan := { base.scan with position := 4 } }

def trippingRevertHeld : State :=
  { revertHeld.setLine 4 { revertLine none with tripScore := 3 } with scan := { base.scan with position := 4 } }

theorem tripping_plan : tripping.RingPlanInv := by apply ring_plan_inv <;> decide
theorem tripping_pending_plan : trippingPending.RingPlanInv := by apply ring_plan_inv <;> decide
theorem tripping_held_plan : trippingHeld.RingPlanInv := by apply ring_plan_inv <;> decide
theorem tripping_revert_held_plan : trippingRevertHeld.RingPlanInv := by apply ring_plan_inv <;> decide

theorem witness_TripEndsTheRinging :
    (∀ blanking tripScore missCount,
      let s := hears { lineIn .ringing with blanking := blanking, tripScore := tripScore, missCount := missCount }
      s.scan.position = 4 ∧ (s.line 4).state = .ringing ∧ (s.line 4).blanking = blanking ∧
      (s.line 4).tripScore = tripScore ∧ (s.line 4).missCount = missCount) ∧
    replyGood (reply 49 0 0) = true ∧ replyGood (reply 50 0 0) = true ∧ replyGood noReply = false ∧
    (tripping.line 4).onThreshold party1.code = 50 ∧ (replySample (reply 49 0 0)).loop < 50 ∧
    50 ≤ (replySample (reply 50 0 0)).loop ∧ 3 ≤ (tripping.line 4).tripScore ∧ (tripping.line 4).blanking = 0 ∧
    tripping.RingPlanInv ∧ tripping.job 0 = some placedCall ∧ placedCall.line = tripping.scan.position ∧
    placedCall.isHeld = false ∧
    (trippingPending.RingPlanInv ∧ trippingPending.hold.state = .holdPending ∧ entry.applied.isSome = true ∧
      trippingPending.sched.placements = [entry]) ∧
    (∀ s, s = trippingHeld ∨ s = trippingRevertHeld →
      s.RingPlanInv ∧ s.scan.position = 4 ∧ 3 ≤ (s.line 4).tripScore ∧ (s.line 4).blanking = 0 ∧
      (s.line 4).state = .ringing ∧ s.job 1 = some general ∧ general.isHeld = false ∧ s.heldJob 4 = some 0) ∧
    (trippingHeld.job 0 = some heldCall ∧ trippingRevertHeld.job 0 = some { revertJob with phase := .held } ∧
      (trippingRevertHeld.line 4).revert = some { context with job := some 0 }) :=
  ⟨fun _ _ _ => ⟨rfl, rfl, rfl, rfl, rfl⟩, by decide, by decide, by decide, by decide, by decide, by decide, by decide,
    by decide, tripping_plan, by decide, by decide, by decide, ⟨tripping_pending_plan, by decide⟩,
    fun _ h => by
      obtain rfl | rfl := h
      · exact ⟨tripping_held_plan, by decide⟩
      · exact ⟨tripping_revert_held_plan, by decide⟩,
    by decide⟩

/-! ### Step boundaries -/

theorem witness_StepBoundaryAdvances :
    (∀ h, ({ placed with hold := h } : State).hold = h) ∧ placed.job 1 = none := ⟨fun _ => rfl, by decide⟩
theorem witness_DemandAndBudget :
    (running.Inv ∧ ({ running with derate := 2 } : Channel).Inv) ∧ (lineIn .idle).active = some profile ∧
    party1.code ∈ call.codes := ⟨⟨by constructor <;> decide, by constructor <;> decide⟩, by decide⟩

theorem calm (s : State) (h : s.sched.position ≠ 23 ∧
    (∀ n, (s.line n).state ≠ .linger ∧ (s.line n).state ≠ .revertWait ∧ (s.line n).state ≠ .revertTalk) ∧
    (∀ c, (s.channel c).state ≠ .starting ∧ (s.channel c).entryMark = false) ∧ s.hold.state ≠ .resuming) : s.Calm :=
  ⟨⟨h.1, h.2.1, h.2.2.1⟩, h.2.2.2⟩

/-- `waiting`, with every channel OFF at a derate level and the signals as given. -/
def stopped (grdy govl : Bool) (derate : Nat := 0) : State :=
  { waiting with
    channels := tabulate fun _ => { running with state := .off, grdy := grdy, govl := govl, derate := derate } }

theorem one_waiting (s : State) (jobs : s.sched.jobs = waiting.sched.jobs) (queue : s.sched.queue = [0])
    (placements : s.sched.placements = []) : s.OneWaiting 0 call where
  job := by
    unfold State.job
    rw [jobs]
    decide
  others := by
    unfold State.job
    rw [jobs]
    decide
  waiting := rfl
  queue := queue
  placements := placements

/-- Job 0 STARVED at the head of the queue, and behind it job 2 of line 5 on the same channel. -/
def behindStarved : State :=
  { (waiting.setLine 5 (lineIn .ringing)) with
    sched :=
      { waiting.sched with
        jobs :=
          ((waiting.setJob 0 (some { call with skips := 48, starved := true })).setJob 2
            (some { call with line := 5, arrival := 1 })).sched.jobs
        queue := [0, 2], arrivalCounter := 2 } }

theorem starved_jobs : ∀ id, ∀ j ∈ behindStarved.job id, j.offset = none ∧ j.waitingSteps < 479 := by decide

theorem witness_PlacementTakesTheFirstFit :
    (let s := stopped false false
     s.Calm ∧ s.OneWaiting 0 call ∧ s.channelOut call.codes = false ∧ call.waitingSteps < 479 ∧
     s.sched.placementCounter < 4294967295 ∧
     (∀ c k, s.cell c k + s.demand call (s.sched.position + 2 + (0 : Fin 24)) c k ≤ (s.channel c).effective) ∧
     ∀ c, (s.channel c).grdy = false ∧ (s.channel c).govl = false) ∧
    (let s : State := { waiting with channels := tabulate fun _ => { running with nominal := 4 } }
     s.Calm ∧ s.OneWaiting 0 call ∧
     ∀ o, ¬ ∀ c k, s.cell c k + s.demand call o c k ≤ (s.channel c).effective) ∧
    (let s := behindStarved
     s.job 2 = some { call with line := 5, arrival := 1 } ∧ 0 ∈ s.sched.queue.takeWhile (· != 2) ∧
     s.job 0 = some { call with skips := 48, starved := true } ∧ call.uses 0 = true ∧ s.Calm ∧
     s.sched.placements = [] ∧ (∀ id j, s.job id = some j → j.offset = none ∧ j.waitingSteps < 479) ∧
     ∀ c, (s.channel c).state ≠ .off) :=
  ⟨⟨calm _ (by decide), one_waiting _ rfl rfl rfl, by decide⟩,
    ⟨calm _ (by decide), one_waiting _ rfl rfl rfl, by decide⟩, by decide, by decide, by decide, by decide,
    calm _ (by decide), by decide, fun id j h => starved_jobs id j h, by decide⟩
/-- The REVERT job 0 WAITING, with every channel OFF at level 2 and GOVL asserted. -/
def stoppedRevert : State := { revertRinging with channels := (stopped false true 2).channels }

theorem witness_SignalsAreTakenAtTheStart :
    (∀ grdy govl derate, (grdy, govl, derate) ∈ [(false, true, 0), (true, true, 1), (true, true, 2)] →
      let s := stopped grdy govl derate
      s.Calm ∧ s.OneWaiting 0 call ∧ s.channelOut call.codes = false ∧ call.waitingSteps < 479 ∧
      (∃ o, ∀ c k, s.cell c k + s.demand call o c k ≤ (s.channel c).effective) ∧
      call.uses 0 = true ∧ (s.channel 0).state = .off ∧ (s.channel 0).govl = govl ∧ (s.channel 0).grdy = grdy ∧
      (s.channel 0).derate = derate ∧ (s.line call.line).state = .ringing) ∧
    (let s := stoppedRevert
     s.Calm ∧ s.OneWaiting 0 revertJob ∧ s.channelOut revertJob.codes = false ∧ revertJob.waitingSteps < 479 ∧
     (∃ o, ∀ c k, s.cell c k + s.demand revertJob o c k ≤ (s.channel c).effective) ∧ revertJob.uses 0 = true ∧
     (s.channel 0).state = .off ∧ (s.channel 0).govl = true ∧ 2 ≤ (s.channel 0).derate ∧ revertJob.kind = .revert ∧
     (s.line revertJob.line).revert = some { context with job := some 0 }) := by
  refine ⟨fun grdy govl derate case => ?_, calm _ (by decide), ⟨by decide, by decide, rfl, rfl, rfl⟩, by decide⟩
  simp only [List.mem_cons, Prod.mk.injEq, List.not_mem_nil, or_false] at case
  obtain ⟨rfl, rfl, rfl⟩ | ⟨rfl, rfl, rfl⟩ | ⟨rfl, rfl, rfl⟩ := case <;>
    exact ⟨calm _ (by decide), one_waiting _ rfl rfl rfl, by decide⟩

/-- Job 0 PLACED as `j`, with entry `e` and the code that entry holds on line 4, at a position and in a hold state. -/
def ringing (j : Job) (e : Placement) (position : Pos) (hold : Hold) : State :=
  { placed with
    hold := hold
    lines := (placed.setLine 4 { lineIn .ringing with applied := e.applied }).lines
    sched := { placed.sched with jobs := (base.setJob 0 (some j)).sched.jobs, placements := [e], position := position } }

theorem one_placed (j : Job) (e : Placement) (position : Pos) (hold : Hold) (stamp : Nat)
    (phase : j.phase = .placed e.offset stamp) (entry : e.job = 0) : (ringing j e position hold).OnePlaced 0 j e where
  job := rfl
  others other h := by
    change ((base.setJob 0 (some j)).job other) = none
    have none_in_use : ∀ id, base.job id = none := by decide
    rw [State.job_setJob, if_neg (Ne.symm h), none_in_use]
  placed := ⟨stamp, phase⟩
  entry := entry
  queue := rfl
  placements := rfl

def resuming : Hold := { state := .resuming, mode := none, cause := some .request, storm := false }

/-- Two PLACED jobs: `placed`, and job 1 of line 5 in its lead-in at offset 7. -/
def placedCall5 : Job := { call5 with phase := .placed 7 1, skips := 0 }

def entry5 : Placement := { job := 1, offset := 7, begun := false, applied := none }

def twoPlaced : State :=
  { placed.setLine 5 (lineIn .ringing) with
    sched :=
      { placed.sched with
        jobs := (placed.setJob 1 (some placedCall5)).sched.jobs
        arrivalCounter := 2, placementCounter := 2
        cells := tabulate fun c => tabulate fun k => if c = 0 ∧ 1 ≤ k.val ∧ k.val ≤ 12 then 5 else 0
        placements := [entry, entry5] } }

theorem two_placed_plan : twoPlaced.RingPlanInv := by apply ring_plan_inv <;> decide

theorem placements_inv (s : State)
    (entries : ∀ e ∈ s.sched.placements, ∃ j ∈ s.job e.job, j.offset = some e.offset)
    (jobs : ∀ id, ∀ j ∈ s.job id, j.offset.isSome → ∃ e ∈ s.sched.placements, e.job = id)
    (order : s.sched.placements.Pairwise fun a b =>
      ∃ x ∈ s.job a.job, ∃ y ∈ s.job b.job, ∃ m ∈ x.stamp, ∃ n ∈ y.stamp, m < n)
    (counter : s.sched.placementCounter ≤ stampLimit ∧
      ∀ id, ∀ j ∈ s.job id, ∀ m ∈ j.stamp, m < s.sched.placementCounter) : s.PlacementsInv :=
  ⟨entries, jobs, order, counter⟩

/-- `twoPlaced` at a position, with the cycles that remain to job 0. -/
def cycling (position : Pos) (remaining : Nat) : State :=
  { twoPlaced with
    sched := { (twoPlaced.setJob 0 (some { placedCall with remaining := remaining })).sched with position := position } }

theorem witness_BurstsFollowThePattern :
    (∀ s, s = cycling 1 1 ∨ s = cycling 1 2 ∨ s = cycling 7 2 ∨ s = cycling 2 2 →
      s.PlacementsInv ∧ s.job 5 = none ∧ s.job 1 = some placedCall5 ∧ entry ∈ s.sched.placements ∧
      entry5 ∈ s.sched.placements ∧ (s.line 4).applied = entry.applied ∧ (s.line 5).applied = entry5.applied) ∧
    ((cycling 1 1).job 0 = some { placedCall with remaining := 1 } ∧
      (cycling 1 2).job 0 = some { placedCall with remaining := 2 } ∧ entry.offset = (cycling 1 2).sched.position ∧
      entry.begun = true ∧ entry5.offset = (cycling 7 2).sched.position ∧ entry5.begun = false ∧
      ({ placedCall with remaining := 2 } : Job).offset ≠ some (cycling 2 2).sched.position) ∧
    (∀ hold, hold = base.hold ∨ hold = holdPending ∨ hold = resuming →
      let s : State := { twoPlaced with hold := hold }
      s.Quiet ∧ (∀ c, (s.channel c).state ≠ .off) ∧ noOrder.jobs.Nodup ∧ s.sched.placements.length = 2) ∧
    (∀ position : Pos, position = 6 ∨ position = 0 → ∀ hold, hold = base.hold ∨ hold = holdPending ∨ hold = resuming →
      let s := ringing placedCall entry position hold
      s.Quiet ∧ s.OnePlaced 0 placedCall entry ∧ (s.line 4).state = .ringing ∧ (s.line 4).applied = entry.applied ∧
      placedCall.codeIndex < placedCall.codes.length ∧ 1 ≤ placedCall.remaining ∧ entry.applied.isSome ∧
      entry.begun = true ∧
      ∃ q, placedCall.codes[placedCall.codeIndex]? = some q) ∧
    ∃ position, entry.offset = position + 1 := by
  refine ⟨?_, by decide, ?_, ?_, 0, rfl⟩
  · rintro _ (rfl | rfl | rfl | rfl) <;> exact ⟨placements_inv _ (by decide) (by decide) (by decide) (by decide), by decide⟩
  · rintro _ (rfl | rfl | rfl) <;> exact ⟨⟨by decide, by decide, by decide⟩, by decide⟩
  rintro _ (rfl | rfl) _ (rfl | rfl | rfl) <;>
    exact ⟨⟨by decide, by decide, by decide⟩, one_placed _ _ _ _ 0 rfl rfl, by decide, by decide, by decide, by decide, by decide,
      by decide, _, rfl⟩

/-- The GENERAL job 1 PLACED above the HELD job 0, at the boundary into its offset with one cycle left. -/
def lastGeneral : Job := { general with phase := .placed 1 0, rang := true, remaining := 1 }

def generalEntry : Placement := { job := 1, offset := 1, begun := true, applied := some { party1.code with pattern := 6 } }

def heldBeneathPlaced : State :=
  { heldBeneath.setLine 4 { lineIn .ringing with applied := generalEntry.applied } with
    sched :=
      { heldBeneath.sched with
        jobs := (heldBeneath.setJob 1 (some lastGeneral)).sched.jobs
        queue := [], placementCounter := 1, position := 1, placements := [generalEntry]
        cells := (heldBeneath.addDemand lastGeneral 1).sched.cells } }

/-- Job 0 PLACED, before the boundary that ends its last cycle, and job 1 of line 5 WAITING at 479 steps. -/
def lastBoundary : State :=
  { (twoRinging.setLine 4 (lineIn .ringing)) with
    sched :=
      { ((twoRinging.setJob 0 (some { placedCall with remaining := 1 })).setJob 1
            (some { call5 with waitingSteps := 479 })).sched with
        position := 0, placements := [{ entry with applied := none }] } }

theorem last_boundary_plan : lastBoundary.RingPlanInv := by apply ring_plan_inv <;> decide

/-- `heldBeneath`, with the waiting steps of the GENERAL job. -/
def heldBeneathWaiting (steps : Nat) : State := heldBeneath.setJob 1 (some { general with waitingSteps := steps })

theorem cycling_plan : (cycling 1 1).RingPlanInv := by apply ring_plan_inv <;> decide
theorem held_beneath_placed_plan : heldBeneathPlaced.RingPlanInv := by apply ring_plan_inv <;> decide
theorem held_beneath_waiting_plan : (heldBeneathWaiting 478).RingPlanInv := by apply ring_plan_inv <;> decide
theorem held_beneath_limit_plan : (heldBeneathWaiting 479).RingPlanInv := by apply ring_plan_inv <;> decide

theorem witness_JobTimersRunOut :
    (∀ channels, channels = base.channels ∨ channels = (channelsAre { running with state := .failed }).channels →
      heldBeneathPlaced.JobsInv ∧ heldBeneathPlaced.QueueInv ∧
      (let s : State := { heldBeneathPlaced with channels := channels }
       s.PlacementsInv ∧ s.job 1 = some lastGeneral ∧ s.sched.placements = [generalEntry] ∧
       (s.line lastGeneral.line).applied = generalEntry.applied ∧ generalEntry.begun = true ∧
       generalEntry.offset = s.sched.position ∧ lastGeneral.rang = true ∧ lastGeneral.remaining = 1 ∧
       s.job 0 = some heldCall ∧ heldCall.line = lastGeneral.line ∧ heldCall.isHeld = true ∧
       s.channelOut heldCall.codes = decide (channels ≠ base.channels))) ∧
    (let s := cycling 1 1
     s.JobsInv ∧ s.QueueInv ∧ s.PlacementsInv ∧ s.job 1 = some placedCall5 ∧ s.heldJob 4 = none) ∧
    (∀ steps, steps = 478 ∨ steps = 479 →
      (heldBeneathWaiting steps).JobsInv ∧ (heldBeneathWaiting steps).QueueInv ∧
      (heldBeneathWaiting steps).hold.state = .running ∧
      (heldBeneathWaiting steps).job 1 = some { general with waitingSteps := steps } ∧
      (heldBeneathWaiting steps).job 0 = some heldCall) ∧
    (lastBoundary.Quiet ∧ lastBoundary.RingPlanInv ∧ lastBoundary.job 0 = some { placedCall with remaining := 1 } ∧
      lastBoundary.sched.placements = [{ entry with applied := none }] ∧ entry.begun = true ∧
      entry.offset = lastBoundary.sched.position + 1 ∧ placedCall.rang = true ∧ lastBoundary.heldJob 4 = none ∧
      lastBoundary.job 1 = some { call5 with waitingSteps := 479 } ∧ call5.isWaiting = true ∧
      lastBoundary.hold.state = .running ∧ lastBoundary.heldJob 5 = none) ∧
    (let j := { placedCall with remaining := 1 }
     let s := ringing j entry 0 base.hold
     s.Calm ∧ (s.line j.line).state = .ringing ∧ s.OnePlaced 0 j entry ∧ entry.begun = true ∧
     entry.offset = s.sched.position + 1 ∧ j.rang = true ∧ j.remaining = 1) ∧
    (let j := { call with waitingSteps := 479 }
     let s : State := { waiting with sched := { waiting.sched with jobs := (base.setJob 0 (some j)).sched.jobs } }
     s.Calm ∧ (s.line j.line).state = .ringing ∧ s.OneWaiting 0 j ∧ s.hold.state = .running ∧ 479 ≤ j.waitingSteps) ∧
    (let j := { placedCall with kind := .revert, remaining := 1 }
     let s := (ringing j entry 0 base.hold).setLine 4 (revertLine entry.applied)
     s.Calm ∧ (s.line j.line).state = .ringing ∧ s.OnePlaced 0 j entry ∧ j.kind = .revert ∧
     (s.line j.line).revert = some { context with job := some 0 }) := by
  refine ⟨?_, ⟨cycling_plan.jobs, cycling_plan.queue, cycling_plan.placements, by decide⟩, ?_,
    ⟨⟨by decide, by decide, by decide⟩, last_boundary_plan, by decide⟩, ?_⟩
  · rintro _ (rfl | rfl) <;>
      exact ⟨held_beneath_placed_plan.jobs, held_beneath_placed_plan.queue,
        (let h := held_beneath_placed_plan.placements
         ⟨h.entries, h.jobs, h.order, h.counter⟩), by decide⟩
  · rintro _ (rfl | rfl)
    · exact ⟨held_beneath_waiting_plan.jobs, held_beneath_waiting_plan.queue, by decide⟩
    · exact ⟨held_beneath_limit_plan.jobs, held_beneath_limit_plan.queue, by decide⟩
  exact ⟨⟨calm _ (by decide), by decide, one_placed _ _ _ _ 0 rfl rfl, by decide⟩, ⟨calm _ (by decide), by decide,
    ⟨by decide, by decide, rfl, rfl, rfl⟩, by decide⟩, calm _ (by decide), by decide,
    (have h := one_placed { placedCall with kind := .revert, remaining := 1 } entry 0 base.hold 0 rfl rfl
     ⟨h.job, h.others, h.placed, h.entry, h.queue, h.placements⟩), by decide⟩
/-- What a command leaves, read by `f`. -/
def leaves (c : Instr) (s : State) (f : State → α) : Option α :=
  match exec c s with
  | .next t => some (f t)
  | .fault _ | .refused _ => none

/-- A state with every class unmasked and nothing queued. -/
def unmasked (s : State) : State := { s with port := { s.port with masks := 0 } }

/-- R62, R130: the reports of the park timer and of the wait steps, in a queue with room. -/
theorem test_line_timers_report :
    leaves (.permanentLoop noOrder) (unmasked (at4 { lineIn .linger with park := some 1 }))
        (fun t => t.port.indications) = some [.lineFault 4 .permanentLoop .linger] ∧
    leaves (.callerStayed noOrder) (unmasked revertWaiting) (fun t => t.port.indications) =
      some [.revertEvent
        { line := 4, event := .abandoned, caller := 3, called := 1, ringBack := true, retries := 0,
          cause := some .callerStayed }] := by decide +kernel
/-- R148, R153, R154, R155: the reports of a start timeout, and of a recovery and an idle stop at one cycle boundary. -/
theorem test_channel_timers_report :
    leaves (.startTimeout noOrder) (unmasked (channelsAre { running with state := .starting, startTimer := some 1 }))
        (fun t => t.port.indications) =
      some ((List.finRange 4).map fun c => .generatorEvent c .failed 0 .startTimeout) ∧
    leaves (.recovery noOrder)
        (unmasked { base with
          channels := tabulate fun _ => { running with derate := 1, recovery := 9, idleCount := 3 }
          sched := { base.sched with position := 23 } })
        (fun t => t.port.indications) =
      some ((List.finRange 4).map (fun c => .generatorEvent c .running 0 .recovery) ++
        (List.finRange 4).map fun c => .generatorEvent c .off 0 .idleStop) := by decide +kernel
theorem witness_LineTimersRunOut :
    (∀ id j, base.job id = some j → j.line ≠ 4) ∧
    (∀ timer, ((at4 { lineIn .linger with park := some timer }).line 4).park = some timer) ∧
    ∀ c, ((at4 { lineIn .revertWait with revert := some c }).line 4).revert = some c ∧
      ((at4 { lineIn .revertTalk with revert := some c }).line 4).revert = some c :=
  ⟨fun id j h => by
      have none_in_use : ∀ id, base.job id = none := by decide
      simp [none_in_use] at h, fun _ => rfl, fun _ => ⟨rfl, rfl⟩⟩
theorem witness_ChannelTimersRunOut :
    (∀ timer, let ch : Channel := { running with state := .starting, startTimer := some timer }
      (channelsAre ch).channel 0 = ch ∧ ch.entryMark = false ∧ (channelsAre ch).sched.position ≠ 23) ∧
    (let s : State := { base with
       channels := tabulate fun _ => { running with derate := 1, recovery := 9, idleCount := 3 }
       sched := { base.sched with position := 23 } }
     s.sched.position = 23 ∧ (s.channel 0).state = .running ∧ (s.channel 0).govl = false ∧ 0 < (s.channel 0).derate ∧
     (s.channel 0).overloadMark = false ∧ 9 ≤ (s.channel 0).recovery ∧ 3 ≤ (s.channel 0).idleCount ∧
     ∀ id, s.job id = none) ∧
    (∀ ch : Channel,
      let s : State := { base with channels := tabulate fun _ => ch, sched := { base.sched with position := 23 } }
      s.sched.position = 23 ∧ s.channel 0 = ch ∧ ∀ id, s.job id = none) ∧
    (let ch : Channel :=
       { running with state := .starting, startTimer := some 2, derate := 2, recovery := 9, idleCount := 2, govl := true }
     ch.entryMark = false ∧ (∀ timer ∈ ch.startTimer, 2 ≤ timer) ∧ ch.idleCount < 3 ∧ 0 < ch.derate ∧
     ch.overloadMark = false ∧ 9 ≤ ch.recovery) :=
  ⟨fun _ => ⟨rfl, rfl, show (0 : Pos) ≠ 23 by decide⟩, by decide,
    fun _ => ⟨rfl, rfl, show ∀ id, base.job id = none by decide⟩, by decide⟩

/-! ## One step -/

/-- R114 to R117: line 4 trips at the ON threshold and not one below it. -/
theorem test_trip_at_threshold :
    leaves (.trip (reply 50 0 0)) tripping (fun t => ((t.line 4).state, t.job 0)) = some (.answerId, none) ∧
    leaves (.trip (reply 49 0 0)) tripping (fun t => ((t.line 4).state, (t.line 4).tripScore)) = some (.ringing, 2) := by
  decide
/-- R82, R118, R125, R159: what a trip posts for a HELD job beneath it and for the last burst of a pending hold. -/
theorem test_trip_posts :
    leaves (.trip (reply 255 0 0)) (unmasked trippingHeld) (fun t => t.port.indications) =
      some [.jobEnd 0 4 .call .preempted 0 10] ∧
    leaves (.trip (reply 255 0 0)) (unmasked trippingPending) (fun t => t.port.indications) =
      some [.holdEvent { holdPending with state := .held }] := by decide +kernel
/-- R85: a cancelled job leaves its line in IDLE and its cells at 0. -/
theorem test_cancel :
    leaves (.cancel 9 4) placed (fun t => ((t.line 4).state, t.job 0, t.cell 0 3)) = some (.idle, none, 0) := by decide
/-- R107, R160: a storm found at the round's read cuts the code and blanks two arrivals; between two reads it is not
seen. -/
theorem test_storm :
    leaves .stormAssertion due (fun t => (t.hold.state, (t.line 4).applied, (t.line 4).blanking, t.scan.stormDue)) =
      some (.held, none, 2, false) ∧
    leaves .stormAssertion placed (fun t => t.hold.state) = some .running := by decide
/-- R21, R160: the end of the exchange with line circuit 15 starts the round whose read is due. -/
theorem test_round_starts_with_a_read :
    leaves (.sampleArrival noReply) { base with scan := { base.scan with position := 15 } }
        (fun t => (t.scan.position, t.scan.stormDue)) = some (0, true) ∧
    leaves (.sampleArrival noReply) due (fun t => (t.scan.position, t.scan.stormDue)) = some (1, false) := by decide
/-- R169: the length is judged before the arguments. -/
theorem test_port_checks :
    leaves (.ring 9 16 0 0) base (fun t => t.port.reply.map Reply.status) = some (some .badArgument) ∧
    leaves (.frameReceived (frameOf 0x06 9 [16, 0])) base (fun t => t.port.reply.map Reply.status) =
      some (some .badLength) := by decide
/-- R143, R151, R152: the first overload of a budget of 12 leaves 9. -/
theorem test_overload : leaves (.overload 0) placed (fun t => (t.channel 0).effective) = some 9 := by decide
/-- Section 11.1: the RING request of line 2 on the wire, to a line without a profile: NO_PROFILE. -/
theorem test_ring_on_the_wire :
    leaves (.frameReceived [0xA5#8, 0x05, 0x06, 0x3C, 0x02, 0x01, 0x00, 0xB6]) base (fun t => t.port.reply) =
      some (some { type := 0x06, tag := 0x3C, status := .noProfile, body := [] }) := by decide
/-- R175: right after power-on a request is answered NOT_READY. -/
theorem test_start_up :
    leaves (.summaryRead 7) State.reset (fun t => t.port.reply) =
      some (some { type := 0x14, tag := 7, status := .notReady, body := [] }) := by decide

end Sys2Proof.Tests
end

/-! PROOFS. CADENCE_READ (R7): what its frame is read as, and the answer of the Profile Store. -/

namespace Sys2Proof.Machine

/-- A number within the range of an argument is read back from the byte that sends it (R178). -/
@[simp] theorem byteBelow_toByte {n : Nat} (hn : n ≤ 256) (i : Fin n) : byteBelow n (toByte i.val) = some i := by
  have hval : (toByte i.val).toNat = i.val := by
    rw [BitVec.toNat_ofNat]
    exact Nat.mod_eq_of_lt (by omega)
  simp [byteBelow, hval]

/-- A byte past the range of an argument names nothing (R169). -/
theorem byteBelow_eq_none {n : Nat} {b : Byte} (h : n ≤ b.toNat) : byteBelow n b = none :=
  dif_neg (Nat.not_lt.mpr h)

/-- The frame of a CADENCE_READ that names a pattern is read as that request (R178). -/
theorem readRequest_cadenceRead (p : PatternNo) : readRequest 0x05#8 [toByte p.val] = .ok (.cadenceRead p) := by
  have hpattern : byteBelow 8 (toByte p.val) = some p := byteBelow_toByte (by decide) p
  simp [readRequest, hpattern]

/-- The third check of R169 refuses a CADENCE_READ of a pattern over 7. -/
theorem readRequest_cadenceRead_badArgument {pattern : Byte} (h : 7 < pattern.toNat) :
    readRequest 0x05#8 [pattern] = .error .badArgument := by
  have hpattern : byteBelow 8 pattern = none := byteBelow_eq_none h
  simp [readRequest, hpattern]

theorem exec_cadenceRead (tag pattern : Byte) (s : State) :
    exec (.cadenceRead tag pattern) s = .next (s.hostSends 0x05#8 tag [pattern]) := rfl

/-- The Profile Store answers with the count and the bursts, and leaves the state as it is (R7). -/
theorem takeRequest_cadenceRead (s : State) (p : PatternNo) :
    takeRequest s (.cadenceRead p) =
      (s,
        { status := .ok
          body := toByte (s.cadence.get p).length ::
            (s.cadence.get p).flatMap fun b => [toByte b.start, toByte b.length] }) := rfl

/-- Settles O21: the port refuses a pattern over 7, and the Profile Store only reads the table of one within the range. -/
theorem cadenceReadReturnsThePattern : Obligations.CadenceReadReturnsThePattern := by
  intro s tag ready
  refine ⟨fun pattern hover => ?refused, fun p => ?answered⟩
  case refused =>
    have hread : readRequest 0x05#8 [pattern] = .error .badArgument := readRequest_cadenceRead_badArgument hover
    rw [exec_cadenceRead, s.hostSends_refused ready _ _ _ (by simp) _ hread]
  case answered =>
    have hbusy : (takeRequest s (.cadenceRead p)).1.port.busy = [] := ready.busy
    rw [exec_cadenceRead, s.hostSends_taken ready _ _ _ (by simp) _ (readRequest_cadenceRead p) hbusy,
      takeRequest_cadenceRead]

end Sys2Proof.Machine

/-! PROOFS. GENERATOR_RESET (R146): what its frame is read as, and the answer of the Generator Controller. -/

namespace Sys2Proof.Machine

/-! ## The channel byte (R1, R178) -/

/-- A channel is read back from the byte that sends it: channel `c` of the model is channel `c + 1` on the link. -/
@[simp] theorem channelOf_toByte (c : Chan) : channelOf (toByte (c.val + 1)) = some c := by
  have hval : (toByte (c.val + 1)).toNat = c.val + 1 := by
    rw [BitVec.toNat_ofNat]
    exact Nat.mod_eq_of_lt (by omega)
  have hrange : 1 ≤ c.val + 1 ∧ c.val + 1 ≤ 4 := by omega
  simp [channelOf, hval, hrange]

/-- A byte outside 1 to 4 names no channel. -/
theorem channelOf_eq_none {b : Byte} (h : b.toNat < 1 ∨ 4 < b.toNat) : channelOf b = none :=
  dif_neg (by omega)

/-- A request of a channel is read from the byte that sends its channel. -/
@[simp] theorem withChannel_toByte (c : Chan) (f : Chan → HostRequest) :
    withChannel (toByte (c.val + 1)) f = .ok (f c) := by
  simp [withChannel]

/-- The third check of R169 refuses a request of a channel whose byte names none. -/
theorem withChannel_badArgument {b : Byte} (h : b.toNat < 1 ∨ 4 < b.toNat) (f : Chan → HostRequest) :
    withChannel b f = .error .badArgument := by
  simp [withChannel, channelOf_eq_none h]

/-! ## A change of a channel (R155) -/

theorem State.channel_changeChannel (s : State) (c d : Chan) (ch : Channel) (cause : GeneratorCause) :
    (s.changeChannel c ch cause).channel d = if c = d then ch else s.channel d := by
  simp [State.changeChannel, State.channel_setChannel]

@[simp] theorem State.channel_changeChannel_self (s : State) (c : Chan) (ch : Channel) (cause : GeneratorCause) :
    (s.changeChannel c ch cause).channel c = ch := by
  simp [State.channel_changeChannel]

@[simp] theorem State.sched_changeChannel (s : State) (c : Chan) (ch : Channel) (cause : GeneratorCause) :
    (s.changeChannel c ch cause).sched = s.sched := rfl

@[simp] theorem State.lines_changeChannel (s : State) (c : Chan) (ch : Channel) (cause : GeneratorCause) :
    (s.changeChannel c ch cause).lines = s.lines := rfl

/-- The port takes part in a change of a channel by the GENERATOR_EVENT alone. -/
theorem State.port_changeChannel (s : State) (c : Chan) (ch : Channel) (cause : GeneratorCause) :
    (s.changeChannel c ch cause).port = (s.post (.generatorEvent c ch.state ch.derate cause)).port := rfl

@[simp] theorem State.busy_changeChannel (s : State) (c : Chan) (ch : Channel) (cause : GeneratorCause) :
    (s.changeChannel c ch cause).port.busy = s.port.busy := by
  obtain ⟨_, _, _, hbusy, _⟩ := s.port.post_keeps (.generatorEvent c ch.state ch.derate cause)
  exact hbusy

/-- A single code is out exactly where its channel is not in service (R77). -/
theorem State.channelOut_singleton (s : State) (q : RingCode) :
    s.channelOut [q] = !(s.channel q.chan).state.inService := by
  simp [State.channelOut]

/-! ## GENERATOR_RESET -/

/-- The frame of a GENERATOR_RESET that names a channel is read as that request (R178). -/
theorem readRequest_generatorReset (c : Chan) :
    readRequest 0x10#8 [toByte (c.val + 1)] = .ok (.generatorReset c) :=
  withChannel_toByte c .generatorReset

/-- The third check of R169 refuses a GENERATOR_RESET of a channel outside 1 to 4. -/
theorem readRequest_generatorReset_badArgument {channel : Byte} (h : channel.toNat < 1 ∨ 4 < channel.toNat) :
    readRequest 0x10#8 [channel] = .error .badArgument :=
  withChannel_badArgument h .generatorReset

theorem exec_generatorReset (tag channel : Byte) (s : State) :
    exec (.generatorReset tag channel) s = .next (s.hostSends 0x10#8 tag [channel]) := rfl

/-- OFF at level 0 with the counts at 0, the mark clear and GRUN low (R146). -/
theorem Channel.toOff_fields (ch : Channel) (nominal : Nat) :
    (ch.toOff nominal).state = .off ∧ (ch.toOff nominal).grun = false ∧ (ch.toOff nominal).derate = 0 ∧
    (ch.toOff nominal).recovery = 0 ∧ (ch.toOff nominal).overloadMark = false ∧ (ch.toOff nominal).idleCount = 0 ∧
    (ch.toOff nominal).nominal = nominal :=
  ⟨rfl, rfl, rfl, rfl, rfl, rfl, rfl⟩

/-- A FAILED channel is put into OFF, with its GENERATOR_EVENT (R146, R155). -/
theorem takeGeneratorReset_failed {s : State} {c : Chan} (h : (s.channel c).state = .failed) :
    takeRequest s (.generatorReset c) =
      accept (s.changeChannel c ((s.channel c).toOff (s.channel c).nominal) .request) :=
  if_pos h

/-- A channel in any other state is refused (R146). -/
theorem takeGeneratorReset_wrongState {s : State} {c : Chan} (h : (s.channel c).state ≠ .failed) :
    takeRequest s (.generatorReset c) = refuse s .wrongState :=
  if_neg h

/-- A GENERATOR_RESET of a named channel, over a link at rest, is answered by the Generator Controller at once (R169). -/
theorem exec_generatorReset_taken {s t : State} (ready : s.LinkReady) (tag : Byte) (c : Chan) {answer : Answer}
    (htaken : takeRequest s (.generatorReset c) = (t, answer)) (hbusy : t.port.busy = s.port.busy) :
    exec (.generatorReset tag (toByte (c.val + 1))) s = .next (t.replied 0x10#8 tag answer.status answer.body) := by
  have hb : (takeRequest s (.generatorReset c)).1.port.busy = [] := by
    rw [htaken, hbusy, ready.busy]
  rw [exec_generatorReset, s.hostSends_taken ready _ _ _ (by simp) _ (readRequest_generatorReset c) hb, htaken]

/-- Settles O36: the port refuses a byte that names no channel, and the Generator Controller puts a FAILED channel into
OFF and refuses any other. -/
theorem generatorResetReturnsAFailedChannel : Obligations.GeneratorResetReturnsAFailedChannel := by
  intro s tag ready
  refine ⟨fun channel hout => ?badChannel, fun c => ⟨fun hstate => ?otherState, fun hfailed => ?failed⟩⟩
  case badChannel =>
    rw [exec_generatorReset,
      s.hostSends_refused ready _ _ _ (by simp) _ (readRequest_generatorReset_badArgument hout)]
  case otherState =>
    exact exec_generatorReset_taken ready tag c (takeGeneratorReset_wrongState hstate) rfl
  case failed =>
    obtain ⟨hoff, hgrun, hderate, hrecovery, hmark, hidle, hnominal⟩ :=
      (s.channel c).toOff_fields (s.channel c).nominal
    have hexec := exec_generatorReset_taken ready tag c (takeGeneratorReset_failed hfailed)
      (s.busy_changeChannel c _ .request)
    refine ⟨_, hexec, ?_⟩
    rw [State.channel_changeChannel_self, State.port_changeChannel, hoff, hderate]
    refine ⟨rfl, hgrun, rfl, hrecovery, hmark, hidle, hnominal, fun other hne => ?otherChannel,
      s.sched_changeChannel c _ .request, s.lines_changeChannel c _ .request, rfl, fun q hq => ?inService⟩
    case otherChannel =>
      rw [State.channel_changeChannel, if_neg hne.symm]
    case inService =>
      rw [State.channelOut_singleton, hq, State.channel_changeChannel_self, hoff]
      rfl

end Sys2Proof.Machine

/-! PROOFS. MASK_SET and the masks (R172): what its frame is read as, and what the masks make of a posting and of the two
resets. -/

namespace Sys2Proof.Machine

/-! ## The request (R169, R178) -/

/-- The frame of a MASK_SET that names classes alone is read as that request (R178). -/
theorem readRequest_maskSet {masks : Byte} (h : masks.toNat < 32) :
    readRequest 0x13#8 [masks] = .ok (.maskSet masks) :=
  if_pos h

/-- The third check of R169 refuses a MASK_SET with any of bits 5 to 7. -/
theorem readRequest_maskSet_badArgument {masks : Byte} (h : 32 ≤ masks.toNat) :
    readRequest 0x13#8 [masks] = .error .badArgument :=
  if_neg (Nat.not_lt.mpr h)

theorem exec_maskSet (tag masks : Byte) (s : State) :
    exec (.maskSet tag masks) s = .next (s.hostSends 0x13#8 tag [masks]) := rfl

/-- The Message Port takes the new masks and returns them, with the queue as it is (R172). -/
theorem takeRequest_maskSet (s : State) (masks : Byte) :
    takeRequest s (.maskSet masks) =
      ({ s with port := { s.port with masks := masks } }, { status := .ok, body := [masks] }) := rfl

/-! ## The masks at a posting (R171, R172) -/

/-- The bit of the mask byte that an indication's posting looks at; none for STARTED and OVERRUN_NOTICE. -/
def Indication.maskBit? (i : Indication) : Option Nat := i.class?.map fun x => x.1.maskBit

/-- A queue with room takes an indication at its end. -/
theorem Port.indications_enqueue {p : Port} (i : Indication) (room : p.indications.length < queueLimit) :
    (p.enqueue i).indications = p.indications ++ [i] := by
  simp [Port.enqueue, room]

@[simp] theorem Port.indications_raise (p : Port) (target : FlagTarget) :
    (p.raise target).indications = p.indications := by
  cases target <;> rfl

/-- A posting of a class sets its flag, and the class's mask decides whether it is queued (R171). -/
theorem Port.post_of_class (p : Port) {i : Indication} {c : IndicationClass} {target : FlagTarget}
    (h : i.class? = some (c, target)) :
    p.post i = if p.masked c then p.raise target else (p.raise target).enqueue i := by
  simp [Port.post, h]

/-- A posting of no class is queued whatever the masks (R171). -/
theorem Port.post_of_no_class (p : Port) {i : Indication} (h : i.class? = none) : p.post i = p.enqueue i := by
  simp [Port.post, h]

/-- A masked posting leaves the queue as it is (R172). -/
theorem Port.indications_post_masked {p : Port} {i : Indication} {k : Nat} (hbit : i.maskBit? = some k)
    (masked : p.masks.getLsbD k = true) : (p.post i).indications = p.indications := by
  obtain ⟨⟨c, target⟩, hclass, rfl⟩ := Option.map_eq_some_iff.mp hbit
  have hmasked : p.masked c = true := masked
  rw [p.post_of_class hclass, if_pos hmasked, Port.indications_raise]

/-- A posting that no mask stops goes to the end of a queue with room (R171, R172). -/
theorem Port.indications_post_unmasked {p : Port} {i : Indication}
    (unmasked : i.maskBit? = none ∨ ∃ k, i.maskBit? = some k ∧ p.masks.getLsbD k = false)
    (room : p.indications.length < queueLimit) : (p.post i).indications = p.indications ++ [i] := by
  obtain hnone | ⟨k, hbit, hclear⟩ := unmasked
  · rw [p.post_of_no_class (Option.map_eq_none_iff.mp hnone), Port.indications_enqueue i room]
  · obtain ⟨⟨c, target⟩, hclass, rfl⟩ := Option.map_eq_some_iff.mp hbit
    have hunmasked : ¬ p.masked c = true := Bool.eq_false_iff.mp hclear
    have hroom : (p.raise target).indications.length < queueLimit := by rwa [Port.indications_raise]
    rw [p.post_of_class hclass, if_neg hunmasked, Port.indications_enqueue i hroom, Port.indications_raise]

/-! ## The masks at the resets (R172, R176) -/

@[simp] theorem State.masks_post (s : State) (i : Indication) : (s.post i).port.masks = s.port.masks := by
  obtain ⟨_, _, _, _, _, _, hmasks, _⟩ := s.port.post_keeps i
  exact hmasks

@[simp] theorem State.masks_updateLeaky (s : State) (n : LineNo) : (s.updateLeaky n).port.masks = s.port.masks := by
  obtain ⟨_, unchanged⟩ | ⟨_, changed⟩ := s.updateLeaky_cases n
  · rw [unchanged]
  · rw [changed, State.masks_post, State.port_setLine]

/-- Bringing up the LEAKY flags of any lines, in any order, leaves the masks alone. -/
theorem State.masks_foldl_updateLeaky (s : State) (lines : List LineNo) :
    (lines.foldl State.updateLeaky s).port.masks = s.port.masks := by
  induction lines generalizing s with
  | nil => rfl
  | cons n rest ih => rw [List.foldl_cons, ih, State.masks_updateLeaky]

/-- Every class is masked after power-on reset (R172). -/
theorem State.masks_powerOn (rate1 rate0 storm : Bool) (channels : Vector Channel 4) :
    (State.powerOn rate1 rate0 storm channels).port.masks = 0x1F#8 := rfl

/-- Soft reset keeps the masks (R172, R176). -/
theorem State.masks_softReset (s : State) (lines : List LineNo) : (s.softReset lines).port.masks = s.port.masks :=
  s.softValues.masks_foldl_updateLeaky _

/-- Settles O43: the port refuses a byte with bits 5 to 7 and takes any other, a posting is queued or not by its class's
bit of the masks as they stand, power-on reset sets them all and soft reset changes none. -/
theorem maskSetReplacesTheMasks : Obligations.MaskSetReplacesTheMasks := by
  refine ⟨fun s tag masks ready => ⟨fun hover => ?refused, fun hrange => ?replaced⟩, fun s i => ?posting,
    State.masks_powerOn, State.masks_softReset⟩
  case refused =>
    rw [exec_maskSet, s.hostSends_refused ready _ _ _ (by simp) _ (readRequest_maskSet_badArgument hover)]
  case replaced =>
    have hbusy : (takeRequest s (.maskSet masks)).1.port.busy = [] := ready.busy
    rw [exec_maskSet, s.hostSends_taken ready _ _ _ (by simp) _ (readRequest_maskSet hrange) hbusy,
      takeRequest_maskSet]
  case posting =>
    intro bit
    have hbit : bit = i.maskBit? := by cases i <;> rfl
    rw [hbit]
    exact ⟨fun _ => Port.indications_post_masked, Port.indications_post_unmasked⟩

end Sys2Proof.Machine
